-- ==== Sys2Proof/Word.lean ====
section
/-! DEFINITION. The word types of the DG-24 and their plainest arithmetic (R2, R8, R54, R58). -/
namespace Sys2Proof

/-- One byte of memory. -/
abbrev Byte := BitVec 8
/-- A scalar register (R54). -/
abbrev Word := BitVec 64
/-- A vector register (R54). -/
abbrev VWord := BitVec 128
/-- A predicate register (R54). -/
abbrev PWord := BitVec 16
/-- An instruction word (R58). -/
abbrev IWord := BitVec 32
/-- A virtual or physical address of 56 bits (R58, R128). -/
abbrev Addr := BitVec 56

end Sys2Proof
end

