-- ==== Sys2Proof/Machine/Bits.lean ====
section
/-! DEFINITION. Bit fields, extension and byte order (R2, R77): `x[hi:lo]` as arithmetic on naturals, `Sext`, `Zext`,
and the little-endian reading and writing of multi-byte values. -/
namespace Sys2Proof

/-- Bits [lo+len-1 : lo] of a natural number. -/
def fld (n lo len : Nat) : Nat := n / 2 ^ lo % 2 ^ len

/-- Bit i of a natural number. -/
def bit (n i : Nat) : Bool := fld n i 1 == 1

/-- 1 for true, 0 for false. -/
def b2n (b : Bool) : Nat := if b then 1 else 0

/-- The signed value of the low `len` bits of n (R77, Sext). -/
def signed (n len : Nat) : Int :=
  if n % 2 ^ len < 2 ^ (len - 1) then (n % 2 ^ len : Nat) else (n % 2 ^ len : Nat) - (2 ^ len : Nat)

/-- An integer wrapped to w bits, as a natural number. -/
def wrapN (x : Int) (w : Nat) : Nat := (x % (2 ^ w : Nat)).toNat

/-- Sext(x, n): bits [n-1:0] of x, sign-extended to 64 bits (R77). -/
def sextW (x n : Nat) : Word := BitVec.ofInt 64 (signed x n)

/-- Zext(x, n): bits [n-1:0] of x, zero-extended to 64 bits (R77). -/
def zextW (x n : Nat) : Word := BitVec.ofNat 64 (x % 2 ^ n)

/-- The value of a little-endian byte list (R2). -/
def leNat : List Byte → Nat
  | [] => 0
  | b :: bs => b.toNat + 256 * leNat bs

/-- The n bytes of a number, little-endian (R2). -/
def leBytes : (n : Nat) → Nat → List Byte
  | 0, _ => []
  | n + 1, v => BitVec.ofNat 8 v :: leBytes n (v / 256)

/-- n bytes of a list from an offset; bytes beyond the list read as zero. -/
def slice (bs : List Byte) (off n : Nat) : List Byte :=
  (List.range n).map fun i => bs.getD (off + i) 0

/-- The little-endian number in n bytes of a list at an offset. -/
def leAt (bs : List Byte) (off n : Nat) : Nat := leNat (slice bs off n)

/-- Number of set bits among the low n bits. -/
def popCount (x : Nat) : Nat → Nat
  | 0 => 0
  | n + 1 => popCount x n + b2n (bit x n)

/-- Floor of the base-2 logarithm; 0 for 0. -/
def log2N (n : Nat) : Nat := Nat.log2 n

/-- Rounded-up division. -/
def ceilDiv (a b : Nat) : Nat := (a + b - 1) / b

/-- Puts an element into a sorted list, before the first element that it may precede. -/
def insertBy {α : Type} (before : α → α → Bool) (x : α) : List α → List α
  | [] => [x]
  | y :: r => if before x y then x :: y :: r else y :: insertBy before x r

/-- Sorts a list; elements that may precede each other keep their order. -/
def sortBy {α : Type} (l : List α) (before : α → α → Bool) : List α := l.foldr (insertBy before) []

/-- The lowest index below n that satisfies the test, if any. -/
def findBelow (n : Nat) (f : Nat → Bool) : Option Nat := (List.range n).find? f

end Sys2Proof
end

