-- ==== Sys2Proof/Syntax.lean ====
section
/-! DEFINITION. The syntax of the DG-24: one constructor per row of spec/opcode_table.json. The first part is the
151 instruction words, with the operand fields of the row (k is bit 31, the bundle bit B of R58; the other fields keep the
row's names). The second part is the 68 operations of the other agents (host, engines, homes, networks, timers, Rosby),
which have no encoding; their arguments say which queue entry, core, slot or partition the operation concerns. -/
namespace Sys2Proof

/-- One constructor per row of the opcode table. -/
inductive Instr where
  /-- R313. Converts accumulator rows under a descriptor to format dt and writes them row-major into a TACQ-filled tile, synchronously. -/
  | acvt (k : BitVec 1) (a t v : BitVec 5)
  /-- R316. Writes X[a] + X[b] modulo 2^64, or the 32-bit form under .w. -/
  | add (k : BitVec 1) (d a b : BitVec 5) (w : BitVec 1)
  /-- R316. Writes X[a] plus the sign-extended 15-bit immediate. -/
  | addImm (k : BitVec 1) (d a : BitVec 5) (i : BitVec 15)
  /-- R316. Writes the bitwise AND of two registers. -/
  | and (k : BitVec 1) (d a b : BitVec 5) (w : BitVec 1)
  /-- R316. Writes X[a] AND the zero-extended 15-bit immediate. -/
  | andImm (k : BitVec 1) (d a : BitVec 5) (i : BitVec 15)
  /-- R316. Writes X[a] AND NOT X[b]. -/
  | andn (k : BitVec 1) (d a b : BitVec 5) (w : BitVec 1)
  /-- R317. Writes the address of the ADDPC word plus four times the sign-extended immediate. -/
  | addpc (k : BitVec 1) (d : BitVec 5) (i : BitVec 15)
  /-- R318. Control strand takes ownership of a live ticket, clears DET, bumps its generation and returns the new handle. -/
  | adopt (k : BitVec 1) (d a : BitVec 5)
  /-- R319. Takes the head block of a row-allocator free list at the descriptor's home and returns its address with device-scope acquire. -/
  | alloc (k : BitVec 1) (d a : BitVec 5)
  /-- R320. Creates a ticket that copies tile rows bit for bit into an accumulator block. -/
  | aload (k : BitVec 1) (d a t c : BitVec 5)
  /-- R320. Creates a ticket that copies accumulator rows bit for bit into a tile. -/
  | astore (k : BitVec 1) (d a t c : BitVec 5)
  /-- R322. Performs an atomic read-modify-write at the home of the address and returns the old value. -/
  | amo (k : BitVec 1) (d a : BitVec 5) (z : BitVec 3) (o : BitVec 4) (r : BitVec 1) (g : BitVec 2) (f : BitVec 3)
  /-- R325. Writes +0 to a range of accumulator blocks, synchronously. -/
  | azero (k : BitVec 1) (a : BitVec 5)
  /-- R326. Releases at die scope and arrives at the current instance of a barrier domain, waiting for completion. -/
  | bar (k : BitVec 1) (a : BitVec 5)
  /-- R326. Arrives at a barrier with a vote and receives the AND or OR of all votes at completion. -/
  | barv (k : BitVec 1) (d a b : BitVec 5) (o : BitVec 1)
  /-- R328. Unconditional PC-relative jump. -/
  | br (k : BitVec 1) (i : BitVec 25)
  /-- R328. Branches PC-relative when bit 0 of the predicate equals sense. -/
  | brp (k : BitVec 1) (p : BitVec 5) (s : BitVec 1) (i : BitVec 19)
  /-- R330. Writes the link to s1 and jumps PC-relative. -/
  | call (k : BitVec 1) (i : BitVec 25)
  /-- R331. Requests cancellation of a ticket, which stops at its next element boundary. -/
  | cancel (k : BitVec 1) (a : BitVec 5)
  /-- R332. Compares memory with a register at the home and writes a new value when equal, returning the old value. -/
  | cas (k : BitVec 1) (d a : BitVec 5) (z : BitVec 3) (r : BitVec 1) (g : BitVec 2) (f : BitVec 3)
  /-- R334. Writes back a dirty line at its home slice and keeps it clean. -/
  | cflush (k : BitVec 1) (a : BitVec 5) (o : BitVec 10)
  /-- R334. Supervisor drop of a line at its home without write-back. -/
  | cinv (k : BitVec 1) (a : BitVec 5) (o : BitVec 10)
  /-- R336. Counts leading zero bits. -/
  | clz (k : BitVec 1) (d a : BitVec 5) (w : BitVec 1)
  /-- R336. Counts trailing zero bits. -/
  | ctz (k : BitVec 1) (d a : BitVec 5) (w : BitVec 1)
  /-- R337. Sets all 16 bits of a predicate to a comparison of two registers. -/
  | cmp (k : BitVec 1) (d a b : BitVec 5) (n w : BitVec 1) (c : BitVec 3)
  /-- R337. Sets a predicate to a comparison of a register with a signed 11-bit immediate. -/
  | cmpImm (k : BitVec 1) (d a : BitVec 5) (c : BitVec 3) (n : BitVec 1) (i : BitVec 11)
  /-- R338. Creates a ticket that reduces or broadcasts a tile over a barrier domain into tile t+1 of every member. -/
  | coll (k : BitVec 1) (d a : BitVec 5) (o : BitVec 3) (t c : BitVec 5)
  /-- R340. Supervisor commit of a reserved page: pops, zeroes and maps a frame. -/
  | commit (k : BitVec 1) (a : BitVec 5)
  /-- R340. Supervisor return of a committed page's frame to the frame pool. -/
  | decommit (k : BitVec 1) (a : BitVec 5)
  /-- R342. Creates a ticket that copies memory under a 32-byte descriptor, optionally to or from a tile. -/
  | copy (k : BitVec 1) (d a t c : BitVec 5)
  /-- R403. Creates a ticket that rearranges units of a source tile into tile t under an index pattern. -/
  | shuffle (k : BitVec 1) (d a t c : BitVec 5)
  /-- R344. Pushes a tagged control value on a claimed neighbour port. -/
  | ctrlv (k : BitVec 1) (q : BitVec 2) (a : BitVec 5)
  /-- R346. Supervisor save of the core's context to its context area while the core keeps running. -/
  | ctxsv
  /-- R347. Supervisor restore of the core's context from its context area. -/
  | ctxld
  /-- R348. Releases at device scope and posts a decrement to a task record's home core. -/
  | decr (a : BitVec 5)
  /-- R349. Sets DET on a live ticket so it outlives its strand. -/
  | detach (k : BitVec 1) (a : BitVec 5)
  /-- R350. Integer quotient toward zero, with fixed results for zero divisor and overflow. -/
  | div (k : BitVec 1) (d a b : BitVec 5) (n w : BitVec 1)
  /-- R351. Ends the issuing strand after its ticket waits, or ends a handler run. -/
  | exit
  /-- R352. Extracts a bit field, zero- or sign-extended. -/
  | extr (k : BitVec 1) (d a : BitVec 5) (s : BitVec 1) (l p : BitVec 6)
  /-- R363. Inserts the low bits of X[a] into a bit field of X[d]. -/
  | ins (k : BitVec 1) (d a : BitVec 5) (l p : BitVec 6)
  /-- R353. Ordering barrier with acquire and/or release at a scope, optionally covering tickets. -/
  | fence (k t r q : BitVec 1) (s : BitVec 3)
  /-- R354. Releases at device scope and returns a block to a free list at the descriptor's home. -/
  | free (k : BitVec 1) (a b : BitVec 5)
  /-- R355. Creates a ticket that copies table rows named by an identifier tile into a tile, or prefetches them under .pf. -/
  | gather (k : BitVec 1) (d a : BitVec 5) (f : BitVec 1) (s : BitVec 3) (t c : BitVec 5)
  /-- R358. Creates a ticket that pools each bag of table rows by sum or mean into a tile. -/
  | gatherp (k : BitVec 1) (d a : BitVec 5) (m : BitVec 1) (s : BitVec 3) (t c : BitVec 5)
  /-- R360. Creates a ticket that fills a tile from memory. -/
  | get (k : BitVec 1) (d a t c : BitVec 5)
  /-- R389. Creates a ticket that drains a tile to memory, possibly armed in a scheduled phase or as multicast. -/
  | put (k : BitVec 1) (d a t c : BitVec 5)
  /-- R361. Supervisor wait until a message is placed in the core's inbox. -/
  | idle
  /-- R362. Synchronously sorts and deduplicates an identifier tile with counts and an inverse map. -/
  | idsort (k : BitVec 1) (d a b t : BitVec 5)
  /-- R376. Synchronously merges two sorted identifier tiles, marking order violations. -/
  | merge (k : BitVec 1) (d a b t : BitVec 5)
  /-- R364. Control strand waits until the named helpers are empty, with core-scope acquire. -/
  | join (a : BitVec 5)
  /-- R365. Jumps to a register target and writes the link. -/
  | jr (k : BitVec 1) (d a : BitVec 5)
  /-- R366. Loads 1 to 8 bytes, extended by size code, with cache hint. -/
  | ld (k : BitVec 1) (d a : BitVec 5) (z : BitVec 3) (h : BitVec 2) (o : BitVec 10)
  /-- R369. Loads at the home and then acquires at a scope, invalidating near-cache words. -/
  | lda (k : BitVec 1) (d a : BitVec 5) (z s : BitVec 3) (o : BitVec 7)
  /-- R370. Loads 16 bytes, or narrower raw bytes widened through an alias window, into a vector. -/
  | ldv (k : BitVec 1) (d : BitVec 4) (a : BitVec 5) (h : BitVec 2) (o : BitVec 10)
  /-- R371. Replaces an 18-bit section of X[d] with the immediate. -/
  | lhi (k : BitVec 1) (d : BitVec 5) (h : BitVec 2) (i : BitVec 18)
  /-- R372. Decrements X[d] and branches while it is non-zero. -/
  | loop (k : BitVec 1) (d : BitVec 5) (o : BitVec 10)
  /-- R373. Writes the smaller operand, signed or unsigned. -/
  | min (k : BitVec 1) (d a b : BitVec 5) (n w : BitVec 1)
  /-- R373. Writes the larger operand, signed or unsigned. -/
  | max (k : BitVec 1) (d a b : BitVec 5) (n w : BitVec 1)
  /-- R374. Sends a capability-checked matrix or fetch command to a dense sequencer, tracked by a ticket. -/
  | mcmd (k : BitVec 1) (d a b c : BitVec 5)
  /-- R377. Creates a ticket that fetches weight rows into the operand store, masked by accumulator values. -/
  | mfetch (k : BitVec 1) (d a c : BitVec 5)
  /-- R378. Creates a ticket that runs a dense matrix product into accumulator blocks. -/
  | mmul (k : BitVec 1) (d a c : BitVec 5)
  /-- R378. Creates a ticket that runs a 2:4 sparse matrix product into accumulator blocks. -/
  | mmuls (k : BitVec 1) (d a c : BitVec 5)
  /-- R380. Waits for the core's tickets and pending writes and switches the dense sequencer to exposed latency mode. -/
  | modeExposed
  /-- R380. Waits for the core's tickets and pending writes and switches the dense sequencer to scoreboard mode. -/
  | modeScoreboard
  /-- R381. Creates a ticket for a local product followed by a torus shift across a tile rectangle. -/
  | mrot (k : BitVec 1) (d a c : BitVec 5)
  /-- R382. Writes the low 64 bits of the product. -/
  | mul (k : BitVec 1) (d a b : BitVec 5) (w : BitVec 1)
  /-- R382. Writes the high 64 bits of the signed or unsigned 128-bit product. -/
  | mulh (k : BitVec 1) (d a b : BitVec 5) (n w : BitVec 1)
  /-- R383. Control strand closes the current task and takes the next task from the run list with device-scope acquire. -/
  | next (d : BitVec 5)
  /-- R384. Changes no state. -/
  | nop
  /-- R385. Writes X[a] - X[b] modulo 2^64. -/
  | sub (k : BitVec 1) (d a b : BitVec 5) (w : BitVec 1)
  /-- R386. Writes the remainder with the dividend's sign, with fixed results for the exceptional cases. -/
  | rem (k : BitVec 1) (d a b : BitVec 5) (n w : BitVec 1)
  /-- R385. Writes the bitwise OR of two registers. -/
  | or (k : BitVec 1) (d a b : BitVec 5) (w : BitVec 1)
  /-- R385. Writes X[a] OR the zero-extended immediate. -/
  | orImm (k : BitVec 1) (d a : BitVec 5) (i : BitVec 15)
  /-- R427. Writes the bitwise XOR of two registers. -/
  | xor (k : BitVec 1) (d a b : BitVec 5) (w : BitVec 1)
  /-- R427. Writes X[a] XOR the zero-extended immediate. -/
  | xorImm (k : BitVec 1) (d a : BitVec 5) (i : BitVec 15)
  /-- R385. Shifts left by a register count. -/
  | shl (k : BitVec 1) (d a b : BitVec 5) (w : BitVec 1)
  /-- R385. Shifts right logically by a register count. -/
  | shr (k : BitVec 1) (d a b : BitVec 5) (w : BitVec 1)
  /-- R385. Shifts right arithmetically by a register count. -/
  | shra (k : BitVec 1) (d a b : BitVec 5) (w : BitVec 1)
  /-- R385. Rotates right by a register count. -/
  | rot (k : BitVec 1) (d a b : BitVec 5) (w : BitVec 1)
  /-- R385. Shifts left by an immediate count. -/
  | shlImm (k : BitVec 1) (d a : BitVec 5) (w : BitVec 1) (c : BitVec 6)
  /-- R385. Shifts right logically by an immediate count. -/
  | shrImm (k : BitVec 1) (d a : BitVec 5) (w : BitVec 1) (c : BitVec 6)
  /-- R385. Shifts right arithmetically by an immediate count. -/
  | shraImm (k : BitVec 1) (d a : BitVec 5) (w : BitVec 1) (c : BitVec 6)
  /-- R385. Rotates right by an immediate count. -/
  | rotImm (k : BitVec 1) (d a : BitVec 5) (w : BitVec 1) (c : BitVec 6)
  /-- R385. Counts set bits of X[a]. -/
  | popc (k : BitVec 1) (d a : BitVec 5) (w : BitVec 1)
  /-- R385. Selects X[a] or X[b] by bit 0 of predicate p0-p7. -/
  | sel (k : BitVec 1) (d a b : BitVec 5) (w : BitVec 1) (p : BitVec 3)
  /-- R387. Computes a bitwise truth-table function of two predicates. -/
  | plog (k : BitVec 1) (d a b : BitVec 5) (t : BitVec 4)
  /-- R387. Copies a predicate to a predicate, or zero-extends it into a scalar. -/
  | pmov (k : BitVec 1) (d a : BitVec 5) (m : BitVec 1)
  /-- R387. Counts set bits of a predicate into a scalar. -/
  | pcnt (k : BitVec 1) (d a : BitVec 5)
  /-- R387. Sets a predicate from the low 16 bits of a scalar. -/
  | pset (k : BitVec 1) (d a : BitVec 5)
  /-- R388. Brings a line into its home slice, never faulting. -/
  | pref (k : BitVec 1) (a : BitVec 5) (o : BitVec 10)
  /-- R391. Adds lane exponents to the dense sequencer's exponent histogram. -/
  | qhist (k : BitVec 1) (a : BitVec 4) (p : BitVec 5) (t : BitVec 4)
  /-- R391. Computes a block scale from the exponent histogram at a percentile. -/
  | qscale (k : BitVec 1) (d a t : BitVec 4)
  /-- R262. Writes a Philox draw of the strand's generator state and advances DRAWCTR. -/
  | rand (k : BitVec 1) (d : BitVec 4)
  /-- R263. Advances DRAWCTR by X[a]. -/
  | rskip (k : BitVec 1) (a : BitVec 5)
  /-- R264. Sets SID and RKEY and clears DRAWCTR, limited in user mode. -/
  | rstrm (k : BitVec 1) (a b : BitVec 5)
  /-- R393. Captures the next n words and issues them repeatedly with stepped register fields. -/
  | rep (m a s : BitVec 5) (n : BitVec 4)
  /-- R394. Reads a system register into a scalar. -/
  | rsys (k : BitVec 1) (d : BitVec 5) (s : BitVec 12)
  /-- R426. Writes a scalar to a system register by its access codes. -/
  | wsys (k : BitVec 1) (a : BitVec 5) (s : BitVec 12)
  /-- R395. Handler strand ends a fault entry, resuming the suspended strand, or ends a message run. -/
  | rte
  /-- R416. Raises cause 0x10 with FADDR = X[a]. -/
  | trap (a : BitVec 5)
  /-- R396. Draws a token by Gumbel-max over a logit tile and writes the version record. -/
  | sample (k : BitVec 1) (d a t : BitVec 5)
  /-- R397. Creates a ticket that overwrites table rows at their homes. -/
  | scatter (k : BitVec 1) (d a : BitVec 5) (s : BitVec 3) (t c : BitVec 5)
  /-- R397. Creates a ticket that sends contributions through the table's update routine. -/
  | scatadd (k : BitVec 1) (d a : BitVec 5) (s : BitVec 3) (t c : BitVec 5)
  /-- R400. Sends a message with up to four payload words to a target core. -/
  | send (k : BitVec 1) (a b : BitVec 5) (n : BitVec 3)
  /-- R401. Posts an atomic update of an HBM word to the update engine of its stack. -/
  | ship (k : BitVec 1) (a b : BitVec 5) (o : BitVec 4)
  /-- R404. Arms the next exchange operation for an owned slot of the open phase. -/
  | slot (k : BitVec 1) (n : BitVec 10)
  /-- R405. Control strand starts a helper strand in the lowest empty helper slot. -/
  | spawn (d a b : BitVec 5)
  /-- R406. Stores the low bytes of X[d], posted to the home. -/
  | st (k : BitVec 1) (d a : BitVec 5) (z : BitVec 3) (h : BitVec 2) (o : BitVec 10)
  /-- R406. Releases at a scope and then stores. -/
  | stl (k : BitVec 1) (d a : BitVec 5) (z s : BitVec 3) (o : BitVec 7)
  /-- R406. Stores a vector, narrowed through an alias window where named. -/
  | stv (k : BitVec 1) (d : BitVec 4) (a : BitVec 5) (h : BitVec 2) (o : BitVec 10)
  /-- R409. Sets BASE and BYTES of an EMPTY tile descriptor. -/
  | tdef (k : BitVec 1) (n a b : BitVec 5)
  /-- R409. Moves a tile from EMPTY to FILLING for software filling. -/
  | tacq (k : BitVec 1) (n : BitVec 5)
  /-- R409. Moves a READY tile with no readers to EMPTY. -/
  | trel (k : BitVec 1) (n : BitVec 5)
  /-- R409. Moves a software-filled tile from FILLING to READY. -/
  | trelFill (k : BitVec 1) (n : BitVec 5)
  /-- R409. Returns a tile's state and bytes. -/
  | tstat (k : BitVec 1) (d n : BitVec 5)
  /-- R411. Creates a task record at a home core from a specification and returns its handle. -/
  | task (d a b : BitVec 5)
  /-- R412. Binds a table descriptor to a table slot and captures the policy version. -/
  | tbind (k : BitVec 1) (n : BitVec 3) (a : BitVec 5)
  /-- R413. Ends the current step of the bound table at its descriptor home. -/
  | tstep (k : BitVec 1) (n : BitVec 3)
  /-- R424. Releases and publishes a new version into the inactive half of a weight set. -/
  | vpub (k : BitVec 1) (a b : BitVec 5)
  /-- R425. Control strand switches the partition's VSEL to the active published version. -/
  | vswitch (k : BitVec 1) (a : BitVec 5)
  /-- R209. Waits for a ticket to end, retiring it or trapping 0x11 on FAULTED. -/
  | waitt (k : BitVec 1) (a : BitVec 5)
  /-- R209. Waits for a ticket to end, writes its state and retires it without trapping. -/
  | waittNt (k : BitVec 1) (d a : BitVec 5)
  /-- R414. Reports a ticket's state into a predicate without waiting or retiring. -/
  | testt (k : BitVec 1) (d a : BitVec 5)
  /-- R212. Reads the cause, failing element or address of a ticket's fault record. -/
  | tinfo (k : BitVec 1) (d a : BitVec 5) (s : BitVec 3)
  /-- R212. Supervisor resume of a PARKED ticket. -/
  | tinfoResume (k : BitVec 1) (d a : BitVec 5)
  /-- R415. Supervisor invalidation of cached translations over a scope, waiting for acknowledgements. -/
  | tlbi (k : BitVec 1) (a : BitVec 5) (g : BitVec 1) (s : BitVec 3)
  /-- R417. Lane-wise sum. -/
  | vadd (k : BitVec 1) (d a b : BitVec 4) (p : BitVec 5) (t : BitVec 4)
  /-- R417. Lane-wise difference. -/
  | vsub (k : BitVec 1) (d a b : BitVec 4) (p : BitVec 5) (t : BitVec 4)
  /-- R417. Lane-wise product. -/
  | vmul (k : BitVec 1) (d a b : BitVec 4) (p : BitVec 5) (t : BitVec 4)
  /-- R417. Lane-wise minimum. -/
  | vmin (k : BitVec 1) (d a b : BitVec 4) (p : BitVec 5) (t : BitVec 4)
  /-- R417. Lane-wise maximum. -/
  | vmax (k : BitVec 1) (d a b : BitVec 4) (p : BitVec 5) (t : BitVec 4)
  /-- R417. Lane-wise absolute value. -/
  | vabs (k : BitVec 1) (d a : BitVec 4) (p : BitVec 5) (t : BitVec 4)
  /-- R417. Lane-wise negation. -/
  | vneg (k : BitVec 1) (d a : BitVec 4) (p : BitVec 5) (t : BitVec 4)
  /-- R418. Lane-wise and, or, xor or andn on bytes. -/
  | vlogic (k : BitVec 1) (d a b : BitVec 4) (p : BitVec 5) (o : BitVec 3)
  /-- R418. Lane-wise shift or rotate by per-lane counts. -/
  | vsh (k : BitVec 1) (d a b : BitVec 4) (p : BitVec 5) (t : BitVec 4) (o : BitVec 3)
  /-- R419. Lane-wise comparison into predicate bits. -/
  | vcmp (k : BitVec 1) (d a b : BitVec 4) (p : BitVec 5) (t : BitVec 4) (c : BitVec 3)
  /-- R419. Lane-wise select of va or vb by predicate. -/
  | vsel (k : BitVec 1) (d a b : BitVec 4) (p : BitVec 5) (t : BitVec 4)
  /-- R420. Byte permutation of va by indices in vb. -/
  | vshuf (k : BitVec 1) (d a b : BitVec 4)
  /-- R420. Broadcasts a scalar into every governed lane. -/
  | vbcast (k : BitVec 1) (d a : BitVec 4) (p : BitVec 5) (t : BitVec 4)
  /-- R420. Extracts one lane into a scalar. -/
  | vext (k : BitVec 1) (d a l t : BitVec 4)
  /-- R420. Inserts a scalar into one lane. -/
  | vins (k : BitVec 1) (d a l t : BitVec 4)
  /-- R421. Converts elements between types with rounding, overflow or stochastic mode. -/
  | vcvt (k : BitVec 1) (d a s c t : BitVec 4) (p : BitVec 5)
  /-- R422. Lane-wise fused multiply-add with one rounding. -/
  | vfma (k : BitVec 1) (d a b c t : BitVec 4) (p : BitVec 5)
  /-- R422. Accumulates exact float products into four f32 lanes in lane order. -/
  | vdot (k : BitVec 1) (d a b t : BitVec 4) (p : BitVec 5)
  /-- R422. Accumulates integer products into four i32 lanes, saturating or wrapping. -/
  | vmaci (k : BitVec 1) (d a b : BitVec 4) (w : BitVec 1) (t : BitVec 4) (p : BitVec 5)
  /-- R423. Reduces lanes by a pairwise tree into lane 0. -/
  | vred (k : BitVec 1) (d a o t : BitVec 4)
  /-- R423. Correctly rounded lane-wise reciprocal. -/
  | vrcp (k : BitVec 1) (d a : BitVec 4) (p : BitVec 5) (t : BitVec 4)
  /-- R423. Correctly rounded lane-wise reciprocal square root. -/
  | vrsq (k : BitVec 1) (d a : BitVec 4) (p : BitVec 5) (t : BitVec 4)
  /-- R423. Correctly rounded lane-wise 2^x. -/
  | vexp2 (k : BitVec 1) (d a : BitVec 4) (p : BitVec 5) (t : BitVec 4)
  /-- R423. Correctly rounded lane-wise log2 x. -/
  | vlog2 (k : BitVec 1) (d a : BitVec 4) (p : BitVec 5) (t : BitVec 4)
  /-- R428. Gives up the strand's issue turn. -/
  | yield
  /-- R235. A write of CLAIM 1 to QCFG makes the issuing strand the holder of the neighbour ports. -/
  | qcfgClaim
  /-- R235. A write of CLAIM 0 to QCFG by the holder releases the neighbour ports. -/
  | qcfgRelease
  /-- R124. Any write to QHCLR clears every bin of the exponent histogram. -/
  | qhclr
  /-- R426. A write of WDOG changes the watchdog limit, compared with accumulated counts from the next cycle. -/
  | wdogWrite (v : BitVec 64)
  /-- R5. A write to a register that has no row of its own, applied by its access codes. -/
  | registerWrite (page offset : Nat) (v : BitVec 64)
  /-- R47. Host write of a new producer index that notifies the partition's lead core of launch records. -/
  | lnotify (p : Nat) (v : BitVec 64)
  /-- R286. Runtime write of the launch consumer index, raising the partition's MSI-X vector when it advances. -/
  | lcons (p : Nat) (v : BitVec 64)
  /-- R192. Write of the routine table address, which starts a load of the update routines. -/
  | routbase (p cn : Nat) (v : BitVec 64)
  /-- R192. The routine table read finishes, loading the update engines or unloading every routine and recording KIND 13. -/
  | routineLoadDone (p : Nat)
  /-- R221. Write that starts loading a barrier domain descriptor. -/
  | domload (p cn : Nat) (v : BitVec 64)
  /-- R221. The barrier network finishes reading the descriptor and loads the domain or refuses it with a KIND 4 record. -/
  | domainLoadDone (p : Nat)
  /-- R280. GCMD 1, a GSTOP write or a host command starts a gang stop, halting strands and tickets at boundaries. -/
  | gangStop (p : Nat)
  /-- R280. After in-flight traffic drains, each core writes its context area, SAVED is set and a KIND 9 record is written. -/
  | gangStopSave (p : Nat)
  /-- R281. GCMD 2 reloads every core's context and resumes the partition in one cycle. -/
  | restore (p : Nat)
  /-- R291. GCMD 3 clears quarantine, zeroes scratchpads and restarts control strands from the last consumer index. -/
  | reissue (p : Nat)
  /-- R292. Host write of an error queue consumer index, freeing ring entries. -/
  | eqcons (page : Nat) (v : BitVec 64)
  /-- R288. CCMD command 1 asks Rosby to create a partition from the creation record. -/
  | create (p : Nat)
  /-- R288. Rosby finishes creation, zeroing state, setting registers and starting control strands, or refuses the record. -/
  | creationDone
  /-- R288. CCMD command 2 stops a partition without a fatal record, ends its references and frees its units. -/
  | destroy (p : Nat)
  /-- R297. Host write of the power cap, ignored outside 600-2,100 watts. -/
  | pcap (v : BitVec 64)
  /-- R297. Every 1 ms Rosby sets the throttle numerator f from measured power and PCAP. -/
  | throttleUpdate
  /-- R295. Module power-on: Rosby runs its ROM, verifies and starts firmware images. -/
  | powerOn
  /-- R296. A firmware image written through the mailbox is verified and staged for the next power-on. -/
  | firmwareUpdate (image : List (BitVec 8))
  /-- R295. Rosby reports measurements of the running images by SPDM over PCIe DOE. -/
  | spdmMeasurements
  /-- R429. At link training the fabric manager gives the device its 16-bit number. -/
  | deviceNumber (n : BitVec 16)
  /-- R164. Fabric manager asks for release of a far extent; new accesses then fault with 0x0E. -/
  | extentRelease (e : Nat)
  /-- R164. After in-flight accesses complete and dirty lines are written back, the device acknowledges the release. -/
  | extentReleaseAck (e : Nat)
  /-- R164. Forced revocation discards the extent's lines, records them lost and acknowledges at once. -/
  | forcedRevocation (e : Nat)
  /-- R240. An owning device serves a Guipure row request through its fabric table directory. -/
  | rowRequest (dev cn tslot elem table id ver : Nat)
  /-- R239. A row reply arrives and each listed requester's element completes as though answered alone. -/
  | rowReply (cn tslot elem : Nat) (cause : Nat) (row : List (BitVec 8))
  /-- R231. A message reaches its target core and is capability-checked into the inbox or diverted. -/
  | messageArrival (i : Nat)
  /-- R234. A message held at a full inbox's port enters the inbox once room frees. -/
  | heldMessageAccept (cn : Nat)
  /-- R232. When the handler strand is empty and no fault entry waits, the oldest inbox message starts the handler at its table entry. -/
  | handlerStart (cn : Nat)
  /-- R273. A waiting strand fault entry starts the handler strand at FHND with CAUSE, FADDR, FPC and FSLOT written. -/
  | faultEntry (cn : Nat)
  /-- R212. A parked ticket's fault entry starts the handler strand without suspending any strand. -/
  | ticketFaultEntry (cn : Nat)
  /-- R42. The home core checks, writes and possibly queues a task record and replies. -/
  | taskRequest (i : Nat)
  /-- R42. The home core's acknowledgement or refusal reaches the issuing strand, which writes the handle or faults. -/
  | taskAck (i : Nat)
  /-- R43. A posted decrement reaches the home core and lowers a task's counter, queuing it at zero or being discarded. -/
  | decrement (i : Nat)
  /-- R45. A queued task that has stood 65,536 cycles moves to the next higher level. -/
  | taskAging (cn : Nat)
  /-- R49. An engine grants an element of a pending ticket by weighted round-robin priority. -/
  | engineGrant (cn eng : Nat)
  /-- R213. An element of a ticket ends, keeping its effect, faulting, parking or being cancelled. -/
  | ticketElementEnd (cn tslot : Nat)
  /-- R229. Once every member has joined, the collective tree is combined and written to every member's tile t+1. -/
  | collectiveCombine (die dom : Nat)
  /-- R250. After every member ends its product steps, operand ranges shift around the torus rectangle. -/
  | mrotShift (cn : Nat)
  /-- R251. An MCMD command reaches the target dense tile, is capability-checked and joins its array queue. -/
  | mcmdArrival (i : Nat)
  /-- R194. The descriptor home grants a step tag to a BOUNDED or STEPPED table ticket. -/
  | stepTagGrant (i : Nat)
  /-- R195. The descriptor home performs a TSTEP, applying buffered STEPPED contributions and advancing STEP. -/
  | tstepRequest (i : Nat)
  /-- R191. An update engine applies one contribution or overwrite to a row atomically. -/
  | rowUpdate (i : Nat)
  /-- R180. The update engine applies a posted SHIP after the home writes back and drops the line. -/
  | shipApply (i : Nat)
  /-- R200. A VPUB, VSWITCH or HOLD change is performed at the weight-set descriptor's home in arrival order. -/
  | weightSetRequest (i : Nat)
  /-- R166. A load, store or atomic is performed at its home in the location's coherence order. -/
  | homeAccess (i : Nat)
  /-- R169. A former owner of a word receives a loss notice, clears its owned mark and acknowledges. -/
  | lossNotice (i : Nat)
  /-- R257. A pending register write from a load reply or latency completes. -/
  | registerWriteback (cn slot i : Nat)
  /-- R257. The divider occupancy of 24 cycles ends. -/
  | dividerRelease (cn slot : Nat)
  /-- R223. A barrier instance completes at cycle B for every member. -/
  | barrierComplete (die dom : Nat)
  /-- R224. An exchange phase closes at cycle B + 16 + NSLOT and its arms are discarded. -/
  | phaseClose (cn : Nat)
  /-- R226. An armed exchange operation held at the port departs in its slot cycle. -/
  | scheduledDeparture (i : Nat)
  /-- R179. Scheduled traffic is performed at its targets 24 or 40 cycles after its slot cycle. -/
  | scheduledArrival (i : Nat)
  /-- R162. At the end of each 1,000,000-cycle period the hot-page tracker picks pages to move. -/
  | hotPagePeriod
  /-- R163. After copying, the old home holds requests, copies dirty granules, writes the DPIT entry and forwards requests. -/
  | pageMoveSwitch (i : Nat)
  /-- R276. A strand's not-ready count reaches LIMIT x 1,024 and the partition takes fatal fault 0x12. -/
  | watchdog (cn slot : Nat)
  /-- R285. An uncorrectable memory error is discarded, poisons a line, or is fatal with cause 0x13. -/
  | uncorrectableError (kind loc : Nat)
  /-- R284. A corrected SRAM or HBM error is counted per die. -/
  | correctedError (die : Nat)
  /-- R292. At most once per 1,000,000-cycle period a KIND 7 or KIND 8 count record is written when the count rose. -/
  | errorCountReport (die : Nat)
  /-- R79. A strand issues a word whose MAJ is illegal or reserved, or whose selector names no instruction, and it raises cause 0x01 with no effect. -/
  | illegalInstruction (w : BitVec 32)
  /-- R329. Fetching a bundle from an absent, reserved, non-executable or untranslated address, or landing inside a bundle, raises a fault on that bundle with FPC and FADDR at the target. -/
  | instructionFetchFault
  /-- R164. The fabric manager grants a 1 GiB far extent of another device to a partition, after which region 0x2 accesses to it stop raising cause 0x07. -/
  | extentGrant (e p dev : Nat)
  /-- R297. The module loses power, and every part of it stops, since it has no always-on island. -/
  | powerLoss
  /-- R225. A SLOT waiting until cycle CycleOf(n) minus 22 reaches that cycle and arms the strand for slot n, or traps if the slot has passed. -/
  | slotArm (cn slot : Nat)
  deriving DecidableEq, Repr

end Sys2Proof
end

