-- ==== Sys2Proof/WellFormed.lean ====
section
/-! DEFINITION. Well-formed instructions: the field limits that R55, R63 to R71 and R82 to R92 set, beyond the bits that
the opcode table fixes. A word whose fields break one of them raises cause 0x01 (R94, check 4). The operations of other
agents have no encoding, so none of them is a well-formed instruction. -/
namespace Sys2Proof

/-- A predicate source names p0-p23, or 31 for all lanes (R54, R55). -/
def predSrc (p : BitVec 5) : Bool := p.toNat < 24 || p.toNat == 31

/-- A predicate destination names p0-p23 (R55). -/
def predDst (p : BitVec 5) : Bool := p.toNat < 24

/-- The width in bits of a vector type code (R98); 0 for the codes 14 and 15, which name no type. -/
def typeWidth (t : Nat) : Nat :=
  match t with
  | 0 | 4 | 11 | 12 => 8
  | 1 | 5 | 9 | 10 => 16
  | 2 | 6 | 8 => 32
  | 3 | 7 => 64
  | 13 => 4
  | _ => 0

/-- The lane count L = 128 / w of a type (R69). -/
def lanesOf (t : Nat) : Nat := 128 / typeWidth t

/-- The pairs that VCVT provides (R112): source type, destination type. -/
def cvtPair (st dt : Nat) : Bool :=
  st ≤ 13 && dt ≤ 13 && st != dt &&
  (if st < 8 then dt ≤ 10
   else if st ≤ 10 then true
   else if st == 13 then 8 ≤ dt && dt ≤ 10
   else 8 ≤ dt && dt ≤ 12)

/-- The field limits of one instruction word. -/
def Instr.wellFormed : Instr → Bool
  | .acvt _ _ _ v => 9 ≤ v.toNat && v.toNat ≤ 13
  | .add _ _ _ _ _ => true
  | .addImm _ _ _ _ => true
  | .and _ _ _ _ _ => true
  | .andImm _ _ _ _ => true
  | .andn _ _ _ _ _ => true
  | .addpc _ _ _ => true
  | .adopt _ _ _ => true
  | .alloc _ _ _ => true
  | .aload _ _ _ _ _ => true
  | .astore _ _ _ _ _ => true
  | .amo _ d _ z o _ _ _ => o.toNat < 9 && (z.toNat != 7 || (o.toNat == 8 && d.toNat % 2 == 0))
  | .azero _ _ => true
  | .bar _ _ => true
  | .barv _ d _ b _ => predDst d && predSrc b
  | .br _ _ => true
  | .brp _ p _ _ => predSrc p
  | .call _ _ => true
  | .cancel _ _ => true
  | .cas _ d _ z _ _ _ => d.toNat != 31 && (z.toNat != 7 || d.toNat % 4 == 0)
  | .cflush _ _ _ => true
  | .cinv _ _ _ => true
  | .clz _ _ _ _ => true
  | .ctz _ _ _ _ => true
  | .cmp _ d _ _ _ _ c => predDst d && c.toNat < 6
  | .cmpImm _ d _ c _ _ => predDst d && c.toNat < 6
  | .coll _ _ _ o t _ => o.toNat < 5 && t.toNat != 31
  | .commit _ _ => true
  | .decommit _ _ => true
  | .copy _ _ _ _ _ => true
  | .shuffle _ _ _ _ _ => true
  | .ctrlv _ _ _ => true
  | .ctxsv => true
  | .ctxld => true
  | .decr _ => true
  | .detach _ _ => true
  | .div _ _ _ _ _ _ => true
  | .exit => true
  | .extr _ _ _ _ l p => p.toNat + l.toNat + 1 ≤ 64
  | .ins _ _ _ l p => p.toNat + l.toNat + 1 ≤ 64
  | .fence _ _ r q s => s.toNat < 6 && (r == 1 || q == 1)
  | .free _ _ _ => true
  | .gather _ _ _ f _ t _ => f == 0 || t.toNat == 0
  | .gatherp _ _ a _ _ _ _ => a.toNat != 31
  | .get _ _ _ _ _ => true
  | .put _ _ _ _ _ => true
  | .idle => true
  | .idsort _ _ _ _ _ => true
  | .merge _ _ _ _ _ => true
  | .join _ => true
  | .jr _ _ _ => true
  | .ld _ _ _ z h _ => z.toNat != 7 && h.toNat != 3
  | .lda _ _ _ z s _ => z.toNat != 7 && s.toNat < 6
  | .ldv _ _ _ h _ => h.toNat != 3
  | .lhi _ _ h _ => h.toNat != 3
  | .loop _ d _ => d.toNat != 0
  | .min _ _ _ _ _ _ => true
  | .max _ _ _ _ _ _ => true
  | .mcmd _ _ _ _ _ => true
  | .mfetch _ _ _ _ => true
  | .mmul _ _ _ _ => true
  | .mmuls _ _ _ _ => true
  | .modeExposed => true
  | .modeScoreboard => true
  | .mrot _ _ _ _ => true
  | .mul _ _ _ _ _ => true
  | .mulh _ _ _ _ _ _ => true
  | .next _ => true
  | .nop => true
  | .sub _ _ _ _ _ => true
  | .rem _ _ _ _ _ _ => true
  | .or _ _ _ _ _ => true
  | .orImm _ _ _ _ => true
  | .xor _ _ _ _ _ => true
  | .xorImm _ _ _ _ => true
  | .shl _ _ _ _ _ => true
  | .shr _ _ _ _ _ => true
  | .shra _ _ _ _ _ => true
  | .rot _ _ _ _ _ => true
  | .shlImm _ _ _ _ _ => true
  | .shrImm _ _ _ _ _ => true
  | .shraImm _ _ _ _ _ => true
  | .rotImm _ _ _ _ _ => true
  | .popc _ _ _ _ => true
  | .sel _ _ _ _ _ _ => true
  | .plog _ d a b _ => predDst d && predSrc a && predSrc b
  | .pmov _ d a m => predSrc a && (m == 1 || predDst d)
  | .pcnt _ _ a => predSrc a
  | .pset _ d _ => predDst d
  | .pref _ _ _ => true
  | .qhist _ _ p t => predSrc p && 8 ≤ t.toNat && t.toNat ≤ 12
  | .qscale _ _ _ t => 11 ≤ t.toNat && t.toNat ≤ 13
  | .rand _ _ => true
  | .rskip _ _ => true
  | .rstrm _ _ _ => true
  | .rep m _ _ _ => m.toNat < 16
  | .rsys _ _ _ => true
  | .wsys _ _ _ => true
  | .rte => true
  | .trap _ => true
  | .sample _ _ _ _ => true
  | .scatter _ _ _ _ _ _ => true
  | .scatadd _ _ _ _ _ _ => true
  | .send _ _ b n => n.toNat ≤ 4 && b.toNat + n.toNat ≤ 32 && (n.toNat != 0 || b.toNat == 0)
  | .ship _ _ _ o => o.toNat < 6
  | .slot _ _ => true
  | .spawn _ _ _ => true
  | .st _ _ _ z h _ => z.toNat != 7 && h.toNat != 3
  | .stl _ _ _ z s _ => z.toNat != 7 && s.toNat < 6
  | .stv _ _ _ h _ => h.toNat != 3
  | .tdef _ _ _ _ => true
  | .tacq _ _ => true
  | .trel _ _ => true
  | .trelFill _ _ => true
  | .tstat _ _ _ => true
  | .task _ _ _ => true
  | .tbind _ _ _ => true
  | .tstep _ _ => true
  | .vpub _ _ _ => true
  | .vswitch _ _ => true
  | .waitt _ _ => true
  | .waittNt _ _ _ => true
  | .testt _ d _ => predDst d
  | .tinfo _ _ _ s => s.toNat < 3
  | .tinfoResume _ _ _ => true
  | .tlbi _ _ _ s => 1 ≤ s.toNat && s.toNat ≤ 4
  | .vadd _ _ _ _ p t => predSrc p && t.toNat ≤ 10
  | .vsub _ _ _ _ p t => predSrc p && t.toNat ≤ 10
  | .vmul _ _ _ _ p t => predSrc p && t.toNat ≤ 10
  | .vmin _ _ _ _ p t => predSrc p && t.toNat ≤ 10
  | .vmax _ _ _ _ p t => predSrc p && t.toNat ≤ 10
  | .vabs _ _ _ p t => predSrc p && (t.toNat ≤ 3 || (8 ≤ t.toNat && t.toNat ≤ 10))
  | .vneg _ _ _ p t => predSrc p && (t.toNat ≤ 3 || (8 ≤ t.toNat && t.toNat ≤ 10))
  | .vlogic _ _ _ _ p o => predSrc p && o.toNat < 4
  | .vsh _ _ _ _ p t o => predSrc p && t.toNat ≤ 7 && o.toNat < 4
  | .vcmp _ _ _ _ p t c => predSrc p && t.toNat ≤ 10 && c.toNat < 6
  | .vsel _ _ _ _ p t => predSrc p && t.toNat ≤ 12
  | .vshuf _ _ _ _ => true
  | .vbcast _ _ _ p t => predSrc p && t.toNat ≤ 12
  | .vext _ _ _ l t => t.toNat ≤ 12 && l.toNat < lanesOf t.toNat
  | .vins _ _ _ l t => t.toNat ≤ 12 && l.toNat < lanesOf t.toNat
  | .vcvt _ _ _ s c t p => predSrc p && cvtPair s.toNat t.toNat && (c.toNat != 1 || (t.toNat != 13 && (s.toNat < 8 || 8 ≤ t.toNat)))
  | .vfma _ _ _ _ _ t p => predSrc p && 8 ≤ t.toNat && t.toNat ≤ 10
  | .vdot _ _ _ _ t p => predSrc p && 9 ≤ t.toNat && t.toNat ≤ 13
  | .vmaci _ _ _ _ _ t p => predSrc p && (t.toNat == 0 || t.toNat == 1 || t.toNat == 4 || t.toNat == 5)
  | .vred _ _ _ o t => o.toNat < 3 && t.toNat ≤ 10
  | .vrcp _ _ _ p t => predSrc p && 8 ≤ t.toNat && t.toNat ≤ 10
  | .vrsq _ _ _ p t => predSrc p && 8 ≤ t.toNat && t.toNat ≤ 10
  | .vexp2 _ _ _ p t => predSrc p && 8 ≤ t.toNat && t.toNat ≤ 10
  | .vlog2 _ _ _ p t => predSrc p && 8 ≤ t.toNat && t.toNat ≤ 10
  | .yield => true
  | .qcfgClaim => false
  | .qcfgRelease => false
  | .qhclr => false
  | .wdogWrite _ => false
  | .registerWrite _ _ _ => false
  | .lnotify _ _ => false
  | .lcons _ _ => false
  | .routbase _ _ _ => false
  | .routineLoadDone _ => false
  | .domload _ _ _ => false
  | .domainLoadDone _ => false
  | .gangStop _ => false
  | .gangStopSave _ => false
  | .restore _ => false
  | .reissue _ => false
  | .eqcons _ _ => false
  | .create _ => false
  | .creationDone => false
  | .destroy _ => false
  | .pcap _ => false
  | .throttleUpdate => false
  | .powerOn => false
  | .firmwareUpdate _ => false
  | .spdmMeasurements => false
  | .deviceNumber _ => false
  | .extentRelease _ => false
  | .extentReleaseAck _ => false
  | .forcedRevocation _ => false
  | .rowRequest _ _ _ _ _ _ _ => false
  | .rowReply _ _ _ _ _ => false
  | .messageArrival _ => false
  | .heldMessageAccept _ => false
  | .handlerStart _ => false
  | .faultEntry _ => false
  | .ticketFaultEntry _ => false
  | .taskRequest _ => false
  | .taskAck _ => false
  | .decrement _ => false
  | .taskAging _ => false
  | .engineGrant _ _ => false
  | .ticketElementEnd _ _ => false
  | .collectiveCombine _ _ => false
  | .mrotShift _ => false
  | .mcmdArrival _ => false
  | .stepTagGrant _ => false
  | .tstepRequest _ => false
  | .rowUpdate _ => false
  | .shipApply _ => false
  | .weightSetRequest _ => false
  | .homeAccess _ => false
  | .lossNotice _ => false
  | .registerWriteback _ _ _ => false
  | .dividerRelease _ _ => false
  | .barrierComplete _ _ => false
  | .phaseClose _ => false
  | .scheduledDeparture _ => false
  | .scheduledArrival _ => false
  | .hotPagePeriod => false
  | .pageMoveSwitch _ => false
  | .watchdog _ _ => false
  | .uncorrectableError _ _ => false
  | .correctedError _ => false
  | .errorCountReport _ => false
  | .illegalInstruction _ => false
  | .instructionFetchFault => false
  | .extentGrant _ _ _ => false
  | .powerLoss => false
  | .slotArm _ _ => false

end Sys2Proof
end

