-- ==== Sys2Proof/Decode.lean ====
section
/-! DEFINITION. The decoder, total on any word, and the encoder, written from the encodings of R62 and R81 to R89. A word is
decoded by MAJ, then by the bits that select the instruction and the bits that must be zero (R92), then by its field
limits; every word that is no instruction is rejected by name. -/
namespace Sys2Proof

/-- Why a word is no instruction (R79, R80, R92): all three raise cause 0x01. -/
inductive DecodeError where
  /-- MAJ 0x00 or 0x3F, or one of the reserved majors (R79). -/
  | major
  /-- A selector or must-be-zero field that names no instruction (R80, R92). -/
  | selector
  /-- An operand field outside its limits (R55, R82 to R91). -/
  | field
  deriving DecidableEq, Repr

/-- The field of a word at bit lo, as wide as the context asks. -/
def bv (n lo len : Nat) : BitVec len := BitVec.ofNat len (fld n lo len)


/-- The instructions of MAJ 0x01 (R81). -/
def decode01 (n : Nat) : Option Instr :=
  if fld n 0 8 = 16 ∧ fld n 9 6 = 0 then some (.clz (bv n 31 1) (bv n 20 5) (bv n 15 5) (bv n 8 1))
  else if fld n 0 8 = 17 ∧ fld n 9 6 = 0 then some (.ctz (bv n 31 1) (bv n 20 5) (bv n 15 5) (bv n 8 1))
  else if fld n 0 8 = 18 ∧ fld n 9 6 = 0 then some (.popc (bv n 31 1) (bv n 20 5) (bv n 15 5) (bv n 8 1))
  else if fld n 0 8 = 0 ∧ fld n 9 1 = 0 then some (.add (bv n 31 1) (bv n 20 5) (bv n 15 5) (bv n 10 5) (bv n 8 1))
  else if fld n 0 8 = 6 ∧ fld n 9 1 = 0 then some (.and (bv n 31 1) (bv n 20 5) (bv n 15 5) (bv n 10 5) (bv n 8 1))
  else if fld n 0 8 = 9 ∧ fld n 9 1 = 0 then some (.andn (bv n 31 1) (bv n 20 5) (bv n 15 5) (bv n 10 5) (bv n 8 1))
  else if fld n 0 8 = 2 ∧ fld n 9 1 = 0 then some (.mul (bv n 31 1) (bv n 20 5) (bv n 15 5) (bv n 10 5) (bv n 8 1))
  else if fld n 0 8 = 1 ∧ fld n 9 1 = 0 then some (.sub (bv n 31 1) (bv n 20 5) (bv n 15 5) (bv n 10 5) (bv n 8 1))
  else if fld n 0 8 = 7 ∧ fld n 9 1 = 0 then some (.or (bv n 31 1) (bv n 20 5) (bv n 15 5) (bv n 10 5) (bv n 8 1))
  else if fld n 0 8 = 8 ∧ fld n 9 1 = 0 then some (.xor (bv n 31 1) (bv n 20 5) (bv n 15 5) (bv n 10 5) (bv n 8 1))
  else if fld n 0 8 = 10 ∧ fld n 9 1 = 0 then some (.shl (bv n 31 1) (bv n 20 5) (bv n 15 5) (bv n 10 5) (bv n 8 1))
  else if fld n 0 8 = 11 ∧ fld n 9 1 = 0 then some (.shr (bv n 31 1) (bv n 20 5) (bv n 15 5) (bv n 10 5) (bv n 8 1))
  else if fld n 0 8 = 12 ∧ fld n 9 1 = 0 then some (.shra (bv n 31 1) (bv n 20 5) (bv n 15 5) (bv n 10 5) (bv n 8 1))
  else if fld n 0 8 = 13 ∧ fld n 9 1 = 0 then some (.rot (bv n 31 1) (bv n 20 5) (bv n 15 5) (bv n 10 5) (bv n 8 1))
  else if fld n 0 8 = 4 then some (.div (bv n 31 1) (bv n 20 5) (bv n 15 5) (bv n 10 5) (bv n 9 1) (bv n 8 1))
  else if fld n 0 8 = 14 then some (.min (bv n 31 1) (bv n 20 5) (bv n 15 5) (bv n 10 5) (bv n 9 1) (bv n 8 1))
  else if fld n 0 8 = 15 then some (.max (bv n 31 1) (bv n 20 5) (bv n 15 5) (bv n 10 5) (bv n 9 1) (bv n 8 1))
  else if fld n 0 8 = 3 then some (.mulh (bv n 31 1) (bv n 20 5) (bv n 15 5) (bv n 10 5) (bv n 9 1) (bv n 8 1))
  else if fld n 0 8 = 5 then some (.rem (bv n 31 1) (bv n 20 5) (bv n 15 5) (bv n 10 5) (bv n 9 1) (bv n 8 1))
  else if fld n 0 5 = 19 ∧ fld n 9 1 = 0 then some (.sel (bv n 31 1) (bv n 20 5) (bv n 15 5) (bv n 10 5) (bv n 8 1) (bv n 5 3))
  else if fld n 0 5 = 20 then some (.cmp (bv n 31 1) (bv n 20 5) (bv n 15 5) (bv n 10 5) (bv n 9 1) (bv n 8 1) (bv n 5 3))
  else none

/-- The instructions of MAJ 0x02 (R81). -/
def decode02 (n : Nat) : Option Instr :=
  some (.addImm (bv n 31 1) (bv n 20 5) (bv n 15 5) (bv n 0 15))

/-- The instructions of MAJ 0x03 (R81). -/
def decode03 (n : Nat) : Option Instr :=
  some (.andImm (bv n 31 1) (bv n 20 5) (bv n 15 5) (bv n 0 15))

/-- The instructions of MAJ 0x04 (R81). -/
def decode04 (n : Nat) : Option Instr :=
  some (.orImm (bv n 31 1) (bv n 20 5) (bv n 15 5) (bv n 0 15))

/-- The instructions of MAJ 0x05 (R81). -/
def decode05 (n : Nat) : Option Instr :=
  some (.xorImm (bv n 31 1) (bv n 20 5) (bv n 15 5) (bv n 0 15))

/-- The instructions of MAJ 0x06 (R81). -/
def decode06 (n : Nat) : Option Instr :=
  if fld n 6 2 = 0 ∧ fld n 9 6 = 0 then some (.shlImm (bv n 31 1) (bv n 20 5) (bv n 15 5) (bv n 8 1) (bv n 0 6))
  else if fld n 6 2 = 1 ∧ fld n 9 6 = 0 then some (.shrImm (bv n 31 1) (bv n 20 5) (bv n 15 5) (bv n 8 1) (bv n 0 6))
  else if fld n 6 2 = 2 ∧ fld n 9 6 = 0 then some (.shraImm (bv n 31 1) (bv n 20 5) (bv n 15 5) (bv n 8 1) (bv n 0 6))
  else if fld n 6 2 = 3 ∧ fld n 9 6 = 0 then some (.rotImm (bv n 31 1) (bv n 20 5) (bv n 15 5) (bv n 8 1) (bv n 0 6))
  else none

/-- The instructions of MAJ 0x07 (R81). -/
def decode07 (n : Nat) : Option Instr :=
  some (.cmpImm (bv n 31 1) (bv n 20 5) (bv n 15 5) (bv n 12 3) (bv n 11 1) (bv n 0 11))

/-- The instructions of MAJ 0x08 (R81). -/
def decode08 (n : Nat) : Option Instr :=
  if fld n 12 3 = 1 then some (.ins (bv n 31 1) (bv n 20 5) (bv n 15 5) (bv n 6 6) (bv n 0 6))
  else if fld n 12 1 = 0 ∧ fld n 14 1 = 0 then some (.extr (bv n 31 1) (bv n 20 5) (bv n 15 5) (bv n 13 1) (bv n 6 6) (bv n 0 6))
  else none

/-- The instructions of MAJ 0x09 (R81). -/
def decode09 (n : Nat) : Option Instr :=
  some (.lhi (bv n 31 1) (bv n 20 5) (bv n 18 2) (bv n 0 18))

/-- The instructions of MAJ 0x0A (R81). -/
def decode0A (n : Nat) : Option Instr :=
  if fld n 15 5 = 0 then some (.addpc (bv n 31 1) (bv n 20 5) (bv n 0 15))
  else none

/-- The instructions of MAJ 0x0B (R81). -/
def decode0B (n : Nat) : Option Instr :=
  if fld n 0 15 = 2 then some (.pcnt (bv n 31 1) (bv n 20 5) (bv n 15 5))
  else if fld n 0 15 = 3 then some (.pset (bv n 31 1) (bv n 20 5) (bv n 15 5))
  else if fld n 0 5 = 1 ∧ fld n 6 9 = 0 then some (.pmov (bv n 31 1) (bv n 20 5) (bv n 15 5) (bv n 5 1))
  else if fld n 0 5 = 0 ∧ fld n 9 1 = 0 then some (.plog (bv n 31 1) (bv n 20 5) (bv n 15 5) (bv n 10 5) (bv n 5 4))
  else none

/-- The instructions of MAJ 0x0C (R81). -/
def decode0C (n : Nat) : Option Instr :=
  some (.br (bv n 31 1) (bv n 0 25))

/-- The instructions of MAJ 0x0D (R81). -/
def decode0D (n : Nat) : Option Instr :=
  some (.call (bv n 31 1) (bv n 0 25))

/-- The instructions of MAJ 0x0E (R81). -/
def decode0E (n : Nat) : Option Instr :=
  some (.brp (bv n 31 1) (bv n 20 5) (bv n 19 1) (bv n 0 19))

/-- The instructions of MAJ 0x0F (R81). -/
def decode0F (n : Nat) : Option Instr :=
  if fld n 0 25 = 5 ∧ fld n 31 1 = 0 then some (.exit)
  else if fld n 0 25 = 2 then some (.nop)
  else if fld n 0 25 = 6 ∧ fld n 31 1 = 0 then some (.yield)
  else if fld n 0 15 = 4 ∧ fld n 20 5 = 0 ∧ fld n 31 1 = 0 then some (.join (bv n 15 5))
  else if fld n 0 15 = 0 then some (.jr (bv n 31 1) (bv n 20 5) (bv n 15 5))
  else if fld n 0 10 = 3 ∧ fld n 31 1 = 0 then some (.spawn (bv n 20 5) (bv n 15 5) (bv n 10 5))
  else if fld n 0 5 = 1 ∧ fld n 15 5 = 0 then some (.loop (bv n 31 1) (bv n 20 5) (bv n 5 10))
  else none

/-- The instructions of MAJ 0x10 (R81). -/
def decode10 (n : Nat) : Option Instr :=
  some (.ld (bv n 31 1) (bv n 20 5) (bv n 15 5) (bv n 12 3) (bv n 10 2) (bv n 0 10))

/-- The instructions of MAJ 0x11 (R81). -/
def decode11 (n : Nat) : Option Instr :=
  some (.st (bv n 31 1) (bv n 20 5) (bv n 15 5) (bv n 12 3) (bv n 10 2) (bv n 0 10))

/-- The instructions of MAJ 0x12 (R81). -/
def decode12 (n : Nat) : Option Instr :=
  if fld n 12 3 = 7 ∧ fld n 24 1 = 0 then some (.ldv (bv n 31 1) (bv n 20 4) (bv n 15 5) (bv n 10 2) (bv n 0 10))
  else none

/-- The instructions of MAJ 0x13 (R81). -/
def decode13 (n : Nat) : Option Instr :=
  if fld n 12 3 = 7 ∧ fld n 24 1 = 0 then some (.stv (bv n 31 1) (bv n 20 4) (bv n 15 5) (bv n 10 2) (bv n 0 10))
  else none

/-- The instructions of MAJ 0x14 (R81). -/
def decode14 (n : Nat) : Option Instr :=
  if fld n 10 2 = 0 then some (.lda (bv n 31 1) (bv n 20 5) (bv n 15 5) (bv n 12 3) (bv n 7 3) (bv n 0 7))
  else if fld n 10 2 = 1 then some (.stl (bv n 31 1) (bv n 20 5) (bv n 15 5) (bv n 12 3) (bv n 7 3) (bv n 0 7))
  else none

/-- The instructions of MAJ 0x15 (R81). -/
def decode15 (n : Nat) : Option Instr :=
  if fld n 6 6 = 16 then some (.cas (bv n 31 1) (bv n 20 5) (bv n 15 5) (bv n 12 3) (bv n 5 1) (bv n 3 2) (bv n 0 3))
  else if fld n 10 2 = 0 then some (.amo (bv n 31 1) (bv n 20 5) (bv n 15 5) (bv n 12 3) (bv n 6 4) (bv n 5 1) (bv n 3 2) (bv n 0 3))
  else none

/-- The instructions of MAJ 0x16 (R81). -/
def decode16 (n : Nat) : Option Instr :=
  if fld n 6 19 = 0 then some (.fence (bv n 31 1) (bv n 5 1) (bv n 4 1) (bv n 3 1) (bv n 0 3))
  else if fld n 10 5 = 2 ∧ fld n 20 5 = 0 then some (.cflush (bv n 31 1) (bv n 15 5) (bv n 0 10))
  else if fld n 10 5 = 3 ∧ fld n 20 5 = 0 then some (.cinv (bv n 31 1) (bv n 15 5) (bv n 0 10))
  else if fld n 10 5 = 1 ∧ fld n 20 5 = 0 then some (.pref (bv n 31 1) (bv n 15 5) (bv n 0 10))
  else none

/-- The instructions of MAJ 0x18 (R81). -/
def decode18 (n : Nat) : Option Instr :=
  if fld n 0 4 = 5 ∧ fld n 13 4 = 0 then some (.vabs (bv n 31 1) (bv n 21 4) (bv n 17 4) (bv n 8 5) (bv n 4 4))
  else if fld n 0 4 = 6 ∧ fld n 13 4 = 0 then some (.vneg (bv n 31 1) (bv n 21 4) (bv n 17 4) (bv n 8 5) (bv n 4 4))
  else if fld n 0 4 = 0 then some (.vadd (bv n 31 1) (bv n 21 4) (bv n 17 4) (bv n 13 4) (bv n 8 5) (bv n 4 4))
  else if fld n 0 4 = 1 then some (.vsub (bv n 31 1) (bv n 21 4) (bv n 17 4) (bv n 13 4) (bv n 8 5) (bv n 4 4))
  else if fld n 0 4 = 2 then some (.vmul (bv n 31 1) (bv n 21 4) (bv n 17 4) (bv n 13 4) (bv n 8 5) (bv n 4 4))
  else if fld n 0 4 = 3 then some (.vmin (bv n 31 1) (bv n 21 4) (bv n 17 4) (bv n 13 4) (bv n 8 5) (bv n 4 4))
  else if fld n 0 4 = 4 then some (.vmax (bv n 31 1) (bv n 21 4) (bv n 17 4) (bv n 13 4) (bv n 8 5) (bv n 4 4))
  else none

/-- The instructions of MAJ 0x19 (R81). -/
def decode19 (n : Nat) : Option Instr :=
  if fld n 3 5 = 0 then some (.vlogic (bv n 31 1) (bv n 21 4) (bv n 17 4) (bv n 13 4) (bv n 8 5) (bv n 0 3))
  else if fld n 3 1 = 1 then some (.vsh (bv n 31 1) (bv n 21 4) (bv n 17 4) (bv n 13 4) (bv n 8 5) (bv n 4 4) (bv n 0 3))
  else none

/-- The instructions of MAJ 0x1A (R81). -/
def decode1A (n : Nat) : Option Instr :=
  if fld n 0 4 = 8 then some (.vsel (bv n 31 1) (bv n 21 4) (bv n 17 4) (bv n 13 4) (bv n 8 5) (bv n 4 4))
  else if fld n 3 1 = 0 then some (.vcmp (bv n 31 1) (bv n 21 4) (bv n 17 4) (bv n 13 4) (bv n 8 5) (bv n 4 4) (bv n 0 3))
  else none

/-- The instructions of MAJ 0x1B (R81). -/
def decode1B (n : Nat) : Option Instr :=
  if fld n 0 13 = 0 then some (.vshuf (bv n 31 1) (bv n 21 4) (bv n 17 4) (bv n 13 4))
  else if fld n 0 4 = 2 ∧ fld n 8 5 = 0 then some (.vext (bv n 31 1) (bv n 21 4) (bv n 17 4) (bv n 13 4) (bv n 4 4))
  else if fld n 0 4 = 3 ∧ fld n 8 5 = 0 then some (.vins (bv n 31 1) (bv n 21 4) (bv n 17 4) (bv n 13 4) (bv n 4 4))
  else if fld n 0 4 = 1 ∧ fld n 13 4 = 0 then some (.vbcast (bv n 31 1) (bv n 21 4) (bv n 17 4) (bv n 8 5) (bv n 4 4))
  else none

/-- The instructions of MAJ 0x1C (R81). -/
def decode1C (n : Nat) : Option Instr :=
  some (.vcvt (bv n 31 1) (bv n 21 4) (bv n 17 4) (bv n 13 4) (bv n 9 4) (bv n 5 4) (bv n 0 5))

/-- The instructions of MAJ 0x1D (R81). -/
def decode1D (n : Nat) : Option Instr :=
  some (.vfma (bv n 31 1) (bv n 21 4) (bv n 17 4) (bv n 13 4) (bv n 9 4) (bv n 5 4) (bv n 0 5))

/-- The instructions of MAJ 0x1E (R81). -/
def decode1E (n : Nat) : Option Instr :=
  if 8 ≤ fld n 5 4 then (if fld n 9 4 = 0 then some (.vdot (bv n 31 1) (bv n 21 4) (bv n 17 4) (bv n 13 4) (bv n 5 4) (bv n 0 5)) else none)
  else if fld n 10 3 = 0 then some (.vmaci (bv n 31 1) (bv n 21 4) (bv n 17 4) (bv n 13 4) (bv n 9 1) (bv n 5 4) (bv n 0 5))
  else none

/-- The instructions of MAJ 0x1F (R81). -/
def decode1F (n : Nat) : Option Instr :=
  if fld n 0 4 = 0 ∧ fld n 8 5 = 0 then some (.vred (bv n 31 1) (bv n 21 4) (bv n 17 4) (bv n 13 4) (bv n 4 4))
  else if fld n 0 4 = 1 ∧ fld n 13 4 = 0 then some (.vrcp (bv n 31 1) (bv n 21 4) (bv n 17 4) (bv n 8 5) (bv n 4 4))
  else if fld n 0 4 = 2 ∧ fld n 13 4 = 0 then some (.vrsq (bv n 31 1) (bv n 21 4) (bv n 17 4) (bv n 8 5) (bv n 4 4))
  else if fld n 0 4 = 3 ∧ fld n 13 4 = 0 then some (.vexp2 (bv n 31 1) (bv n 21 4) (bv n 17 4) (bv n 8 5) (bv n 4 4))
  else if fld n 0 4 = 4 ∧ fld n 13 4 = 0 then some (.vlog2 (bv n 31 1) (bv n 21 4) (bv n 17 4) (bv n 8 5) (bv n 4 4))
  else none

/-- The instructions of MAJ 0x20 (R81). -/
def decode20 (n : Nat) : Option Instr :=
  if fld n 0 20 = 0 ∧ fld n 24 1 = 0 then some (.rand (bv n 31 1) (bv n 20 4))
  else if fld n 0 15 = 1 ∧ fld n 20 5 = 0 then some (.rskip (bv n 31 1) (bv n 15 5))
  else if fld n 0 10 = 2 ∧ fld n 20 5 = 0 then some (.rstrm (bv n 31 1) (bv n 15 5) (bv n 10 5))
  else none

/-- The instructions of MAJ 0x21 (R81). -/
def decode21 (n : Nat) : Option Instr :=
  if fld n 0 5 = 0 ∧ fld n 10 5 = 0 then some (.sample (bv n 31 1) (bv n 20 5) (bv n 15 5) (bv n 5 5))
  else none

/-- The instructions of MAJ 0x22 (R81). -/
def decode22 (n : Nat) : Option Instr :=
  if fld n 0 5 = 0 then some (.idsort (bv n 31 1) (bv n 20 5) (bv n 15 5) (bv n 10 5) (bv n 5 5))
  else if fld n 0 5 = 1 then some (.merge (bv n 31 1) (bv n 20 5) (bv n 15 5) (bv n 10 5) (bv n 5 5))
  else none

/-- The instructions of MAJ 0x23 (R81). -/
def decode23 (n : Nat) : Option Instr :=
  if fld n 14 1 = 0 then some (.gather (bv n 31 1) (bv n 20 5) (bv n 15 5) (bv n 13 1) (bv n 10 3) (bv n 5 5) (bv n 0 5))
  else if fld n 14 1 = 1 then some (.gatherp (bv n 31 1) (bv n 20 5) (bv n 15 5) (bv n 13 1) (bv n 10 3) (bv n 5 5) (bv n 0 5))
  else none

/-- The instructions of MAJ 0x24 (R81). -/
def decode24 (n : Nat) : Option Instr :=
  if fld n 13 2 = 0 then some (.scatter (bv n 31 1) (bv n 20 5) (bv n 15 5) (bv n 10 3) (bv n 5 5) (bv n 0 5))
  else if fld n 13 2 = 2 then some (.scatadd (bv n 31 1) (bv n 20 5) (bv n 15 5) (bv n 10 3) (bv n 5 5) (bv n 0 5))
  else none

/-- The instructions of MAJ 0x25 (R81). -/
def decode25 (n : Nat) : Option Instr :=
  if fld n 0 20 = 1 ∧ fld n 23 2 = 0 then some (.tstep (bv n 31 1) (bv n 20 3))
  else if fld n 0 15 = 3 ∧ fld n 20 5 = 0 then some (.vswitch (bv n 31 1) (bv n 15 5))
  else if fld n 0 15 = 0 ∧ fld n 23 2 = 0 then some (.tbind (bv n 31 1) (bv n 20 3) (bv n 15 5))
  else if fld n 0 10 = 2 ∧ fld n 20 5 = 0 then some (.vpub (bv n 31 1) (bv n 15 5) (bv n 10 5))
  else none

/-- The instructions of MAJ 0x26 (R81). -/
def decode26 (n : Nat) : Option Instr :=
  if fld n 10 5 = 0 then some (.get (bv n 31 1) (bv n 20 5) (bv n 15 5) (bv n 5 5) (bv n 0 5))
  else if fld n 10 5 = 1 then some (.put (bv n 31 1) (bv n 20 5) (bv n 15 5) (bv n 5 5) (bv n 0 5))
  else none

/-- The instructions of MAJ 0x27 (R81). -/
def decode27 (n : Nat) : Option Instr :=
  if fld n 0 15 = 1 ∧ fld n 22 3 = 3 then some (.ctrlv (bv n 31 1) (bv n 20 2) (bv n 15 5))
  else if fld n 0 5 = 0 ∧ fld n 8 2 = 0 ∧ fld n 20 5 = 0 then some (.send (bv n 31 1) (bv n 15 5) (bv n 10 5) (bv n 5 3))
  else none

/-- The instructions of MAJ 0x28 (R81). -/
def decode28 (n : Nat) : Option Instr :=
  if fld n 0 15 = 1 ∧ fld n 20 5 = 0 ∧ fld n 31 1 = 0 then some (.decr (bv n 15 5))
  else if fld n 0 20 = 2 ∧ fld n 31 1 = 0 then some (.next (bv n 20 5))
  else if fld n 0 10 = 0 ∧ fld n 31 1 = 0 then some (.task (bv n 20 5) (bv n 15 5) (bv n 10 5))
  else none

/-- The instructions of MAJ 0x29 (R81). -/
def decode29 (n : Nat) : Option Instr :=
  if fld n 0 5 = 0 ∧ fld n 9 1 = 0 ∧ fld n 20 5 = 0 then some (.ship (bv n 31 1) (bv n 15 5) (bv n 10 5) (bv n 5 4))
  else none

/-- The instructions of MAJ 0x2A (R81). -/
def decode2A (n : Nat) : Option Instr :=
  if fld n 10 5 = 0 then some (.copy (bv n 31 1) (bv n 20 5) (bv n 15 5) (bv n 5 5) (bv n 0 5))
  else if fld n 10 5 = 1 then some (.shuffle (bv n 31 1) (bv n 20 5) (bv n 15 5) (bv n 5 5) (bv n 0 5))
  else none

/-- The instructions of MAJ 0x2B (R81). -/
def decode2B (n : Nat) : Option Instr :=
  if fld n 0 15 = 2 ∧ fld n 20 5 = 0 then some (.cancel (bv n 31 1) (bv n 15 5))
  else if fld n 0 15 = 3 ∧ fld n 20 5 = 0 then some (.detach (bv n 31 1) (bv n 15 5))
  else if fld n 0 15 = 0 ∧ fld n 20 5 = 0 then some (.waitt (bv n 31 1) (bv n 15 5))
  else if fld n 0 15 = 4 then some (.adopt (bv n 31 1) (bv n 20 5) (bv n 15 5))
  else if fld n 0 15 = 32 then some (.waittNt (bv n 31 1) (bv n 20 5) (bv n 15 5))
  else if fld n 0 15 = 1 then some (.testt (bv n 31 1) (bv n 20 5) (bv n 15 5))
  else if fld n 0 15 = 101 then some (.tinfoResume (bv n 31 1) (bv n 20 5) (bv n 15 5))
  else if fld n 0 5 = 5 ∧ fld n 8 7 = 0 then some (.tinfo (bv n 31 1) (bv n 20 5) (bv n 15 5) (bv n 5 3))
  else none

/-- The instructions of MAJ 0x2C (R81). -/
def decode2C (n : Nat) : Option Instr :=
  if fld n 0 20 = 1 then some (.tacq (bv n 31 1) (bv n 20 5))
  else if fld n 0 20 = 2 then some (.trel (bv n 31 1) (bv n 20 5))
  else if fld n 0 20 = 34 then some (.trelFill (bv n 31 1) (bv n 20 5))
  else if fld n 0 15 = 3 then some (.tstat (bv n 31 1) (bv n 20 5) (bv n 15 5))
  else if fld n 0 10 = 0 then some (.tdef (bv n 31 1) (bv n 20 5) (bv n 15 5) (bv n 10 5))
  else none

/-- The instructions of MAJ 0x2D (R81). -/
def decode2D (n : Nat) : Option Instr :=
  if fld n 0 15 = 0 ∧ fld n 20 5 = 0 then some (.bar (bv n 31 1) (bv n 15 5))
  else if fld n 0 5 = 2 ∧ fld n 15 10 = 0 then some (.slot (bv n 31 1) (bv n 5 10))
  else if fld n 0 5 = 1 ∧ fld n 6 4 = 0 then some (.barv (bv n 31 1) (bv n 20 5) (bv n 15 5) (bv n 10 5) (bv n 5 1))
  else none

/-- The instructions of MAJ 0x2E (R81). -/
def decode2E (n : Nat) : Option Instr :=
  if fld n 13 2 = 0 then some (.coll (bv n 31 1) (bv n 20 5) (bv n 15 5) (bv n 10 3) (bv n 5 5) (bv n 0 5))
  else none

/-- The instructions of MAJ 0x30 (R81). -/
def decode30 (n : Nat) : Option Instr :=
  if fld n 5 10 = 0 then some (.mmul (bv n 31 1) (bv n 20 5) (bv n 15 5) (bv n 0 5))
  else if fld n 5 10 = 32 then some (.mmuls (bv n 31 1) (bv n 20 5) (bv n 15 5) (bv n 0 5))
  else none

/-- The instructions of MAJ 0x31 (R81). -/
def decode31 (n : Nat) : Option Instr :=
  if fld n 5 10 = 0 then some (.mrot (bv n 31 1) (bv n 20 5) (bv n 15 5) (bv n 0 5))
  else none

/-- The instructions of MAJ 0x32 (R81). -/
def decode32 (n : Nat) : Option Instr :=
  if fld n 5 5 = 0 then some (.mcmd (bv n 31 1) (bv n 20 5) (bv n 15 5) (bv n 10 5) (bv n 0 5))
  else none

/-- The instructions of MAJ 0x33 (R81). -/
def decode33 (n : Nat) : Option Instr :=
  if fld n 5 10 = 0 then some (.mfetch (bv n 31 1) (bv n 20 5) (bv n 15 5) (bv n 0 5))
  else none

/-- The instructions of MAJ 0x34 (R81). -/
def decode34 (n : Nat) : Option Instr :=
  if fld n 0 15 = 2048 ∧ fld n 20 5 = 0 then some (.azero (bv n 31 1) (bv n 15 5))
  else if fld n 10 5 = 3 ∧ fld n 20 5 = 0 then some (.acvt (bv n 31 1) (bv n 15 5) (bv n 5 5) (bv n 0 5))
  else if fld n 10 5 = 0 then some (.aload (bv n 31 1) (bv n 20 5) (bv n 15 5) (bv n 5 5) (bv n 0 5))
  else if fld n 10 5 = 1 then some (.astore (bv n 31 1) (bv n 20 5) (bv n 15 5) (bv n 5 5) (bv n 0 5))
  else none

/-- The instructions of MAJ 0x35 (R81). -/
def decode35 (n : Nat) : Option Instr :=
  if fld n 0 4 = 1 ∧ fld n 8 9 = 0 then some (.qscale (bv n 31 1) (bv n 21 4) (bv n 17 4) (bv n 4 4))
  else if fld n 0 4 = 0 ∧ fld n 13 4 = 0 ∧ fld n 21 4 = 0 then some (.qhist (bv n 31 1) (bv n 17 4) (bv n 8 5) (bv n 4 4))
  else none

/-- The instructions of MAJ 0x36 (R81). -/
def decode36 (n : Nat) : Option Instr :=
  if fld n 0 25 = 33 ∧ fld n 31 1 = 0 then some (.modeExposed)
  else if fld n 0 25 = 1 ∧ fld n 31 1 = 0 then some (.modeScoreboard)
  else if fld n 0 5 = 0 ∧ fld n 9 1 = 0 ∧ fld n 31 1 = 0 then some (.rep (bv n 20 5) (bv n 15 5) (bv n 10 5) (bv n 5 4))
  else none

/-- The instructions of MAJ 0x38 (R81). -/
def decode38 (n : Nat) : Option Instr :=
  if fld n 0 3 = 0 ∧ fld n 15 5 = 0 then some (.rsys (bv n 31 1) (bv n 20 5) (bv n 3 12))
  else if fld n 0 3 = 1 ∧ fld n 20 5 = 0 then some (.wsys (bv n 31 1) (bv n 15 5) (bv n 3 12))
  else none

/-- The instructions of MAJ 0x39 (R81). -/
def decode39 (n : Nat) : Option Instr :=
  if fld n 0 25 = 2 ∧ fld n 31 1 = 0 then some (.idle)
  else if fld n 0 25 = 1 ∧ fld n 31 1 = 0 then some (.rte)
  else if fld n 0 15 = 0 ∧ fld n 20 5 = 0 ∧ fld n 31 1 = 0 then some (.trap (bv n 15 5))
  else none

/-- The instructions of MAJ 0x3A (R81). -/
def decode3A (n : Nat) : Option Instr :=
  if fld n 0 25 = 0 ∧ fld n 31 1 = 0 then some (.ctxsv)
  else if fld n 0 25 = 1 ∧ fld n 31 1 = 0 then some (.ctxld)
  else none

/-- The instructions of MAJ 0x3B (R81). -/
def decode3B (n : Nat) : Option Instr :=
  if fld n 0 15 = 1 ∧ fld n 20 5 = 0 then some (.commit (bv n 31 1) (bv n 15 5))
  else if fld n 0 15 = 2 ∧ fld n 20 5 = 0 then some (.decommit (bv n 31 1) (bv n 15 5))
  else if fld n 0 5 = 0 ∧ fld n 9 6 = 0 ∧ fld n 20 5 = 0 then some (.tlbi (bv n 31 1) (bv n 15 5) (bv n 8 1) (bv n 5 3))
  else none

/-- The instructions of MAJ 0x3C (R81). -/
def decode3C (n : Nat) : Option Instr :=
  if fld n 0 15 = 0 then some (.alloc (bv n 31 1) (bv n 20 5) (bv n 15 5))
  else if fld n 0 10 = 1 ∧ fld n 20 5 = 0 then some (.free (bv n 31 1) (bv n 15 5) (bv n 10 5))
  else none

/-- The instruction that MAJ selects, before the field limits (R79, R80). -/
def decodeMajor (n : Nat) : Option Instr :=
  match fld n 25 6 with
  | 1 => decode01 n
  | 2 => decode02 n
  | 3 => decode03 n
  | 4 => decode04 n
  | 5 => decode05 n
  | 6 => decode06 n
  | 7 => decode07 n
  | 8 => decode08 n
  | 9 => decode09 n
  | 10 => decode0A n
  | 11 => decode0B n
  | 12 => decode0C n
  | 13 => decode0D n
  | 14 => decode0E n
  | 15 => decode0F n
  | 16 => decode10 n
  | 17 => decode11 n
  | 18 => decode12 n
  | 19 => decode13 n
  | 20 => decode14 n
  | 21 => decode15 n
  | 22 => decode16 n
  | 24 => decode18 n
  | 25 => decode19 n
  | 26 => decode1A n
  | 27 => decode1B n
  | 28 => decode1C n
  | 29 => decode1D n
  | 30 => decode1E n
  | 31 => decode1F n
  | 32 => decode20 n
  | 33 => decode21 n
  | 34 => decode22 n
  | 35 => decode23 n
  | 36 => decode24 n
  | 37 => decode25 n
  | 38 => decode26 n
  | 39 => decode27 n
  | 40 => decode28 n
  | 41 => decode29 n
  | 42 => decode2A n
  | 43 => decode2B n
  | 44 => decode2C n
  | 45 => decode2D n
  | 46 => decode2E n
  | 48 => decode30 n
  | 49 => decode31 n
  | 50 => decode32 n
  | 51 => decode33 n
  | 52 => decode34 n
  | 53 => decode35 n
  | 54 => decode36 n
  | 56 => decode38 n
  | 57 => decode39 n
  | 58 => decode3A n
  | 59 => decode3B n
  | 60 => decode3C n
  | _ => none

/-- A major that is illegal or reserved (R79). -/
def badMajor (m : Nat) : Bool := m ∈ [0x00, 0x3F, 0x17, 0x2F, 0x37, 0x3D, 0x3E]

/-- Decodes one instruction word (R79 to R92). -/
def decodeWord (w : IWord) : Except DecodeError Instr :=
  if badMajor (fld w.toNat 25 6) then .error .major
  else match decodeMajor w.toNat with
    | none => .error .selector
    | some i => if i.wellFormed then .ok i else .error .field

/-- Decodes the first word of a byte stream, little-endian (R2, R58), with the rest of the stream. -/
def decodeBytes : List Byte → Except DecodeError (Instr × List Byte)
  | b0 :: b1 :: b2 :: b3 :: rest =>
    match decodeWord (BitVec.ofNat 32 (leNat [b0, b1, b2, b3])) with
    | .ok i => .ok (i, rest)
    | .error e => .error e
  | _ => .error .selector

/-- A word from its fixed bits and its fields, each with the bit it starts at. -/
def place (base : Nat) : List (Nat × Nat) → Nat
  | [] => base
  | (lo, v) :: fs => place (base + v * 2 ^ lo) fs

/-- The word of a well-formed instruction, as a number: its fixed bits and its fields in place (R62, R81). -/
def encodeNat : Instr → Nat
  | .acvt k a t v => place 0x68000c00 [(31, k.toNat), (15, a.toNat), (5, t.toNat), (0, v.toNat)]
  | .add k d a b w => place 0x2000000 [(31, k.toNat), (20, d.toNat), (15, a.toNat), (10, b.toNat), (8, w.toNat)]
  | .addImm k d a i => place 0x4000000 [(31, k.toNat), (20, d.toNat), (15, a.toNat), (0, i.toNat)]
  | .and k d a b w => place 0x2000006 [(31, k.toNat), (20, d.toNat), (15, a.toNat), (10, b.toNat), (8, w.toNat)]
  | .andImm k d a i => place 0x6000000 [(31, k.toNat), (20, d.toNat), (15, a.toNat), (0, i.toNat)]
  | .andn k d a b w => place 0x2000009 [(31, k.toNat), (20, d.toNat), (15, a.toNat), (10, b.toNat), (8, w.toNat)]
  | .addpc k d i => place 0x14000000 [(31, k.toNat), (20, d.toNat), (0, i.toNat)]
  | .adopt k d a => place 0x56000004 [(31, k.toNat), (20, d.toNat), (15, a.toNat)]
  | .alloc k d a => place 0x78000000 [(31, k.toNat), (20, d.toNat), (15, a.toNat)]
  | .aload k d a t c => place 0x68000000 [(31, k.toNat), (20, d.toNat), (15, a.toNat), (5, t.toNat), (0, c.toNat)]
  | .astore k d a t c => place 0x68000400 [(31, k.toNat), (20, d.toNat), (15, a.toNat), (5, t.toNat), (0, c.toNat)]
  | .amo k d a z o r g f => place 0x2a000000 [(31, k.toNat), (20, d.toNat), (15, a.toNat), (12, z.toNat), (6, o.toNat), (5, r.toNat), (3, g.toNat), (0, f.toNat)]
  | .azero k a => place 0x68000800 [(31, k.toNat), (15, a.toNat)]
  | .bar k a => place 0x5a000000 [(31, k.toNat), (15, a.toNat)]
  | .barv k d a b o => place 0x5a000001 [(31, k.toNat), (20, d.toNat), (15, a.toNat), (10, b.toNat), (5, o.toNat)]
  | .br k i => place 0x18000000 [(31, k.toNat), (0, i.toNat)]
  | .brp k p s i => place 0x1c000000 [(31, k.toNat), (20, p.toNat), (19, s.toNat), (0, i.toNat)]
  | .call k i => place 0x1a000000 [(31, k.toNat), (0, i.toNat)]
  | .cancel k a => place 0x56000002 [(31, k.toNat), (15, a.toNat)]
  | .cas k d a z r g f => place 0x2a000400 [(31, k.toNat), (20, d.toNat), (15, a.toNat), (12, z.toNat), (5, r.toNat), (3, g.toNat), (0, f.toNat)]
  | .cflush k a o => place 0x2c000800 [(31, k.toNat), (15, a.toNat), (0, o.toNat)]
  | .cinv k a o => place 0x2c000c00 [(31, k.toNat), (15, a.toNat), (0, o.toNat)]
  | .clz k d a w => place 0x2000010 [(31, k.toNat), (20, d.toNat), (15, a.toNat), (8, w.toNat)]
  | .ctz k d a w => place 0x2000011 [(31, k.toNat), (20, d.toNat), (15, a.toNat), (8, w.toNat)]
  | .cmp k d a b n w c => place 0x2000014 [(31, k.toNat), (20, d.toNat), (15, a.toNat), (10, b.toNat), (9, n.toNat), (8, w.toNat), (5, c.toNat)]
  | .cmpImm k d a c n i => place 0xe000000 [(31, k.toNat), (20, d.toNat), (15, a.toNat), (12, c.toNat), (11, n.toNat), (0, i.toNat)]
  | .coll k d a o t c => place 0x5c000000 [(31, k.toNat), (20, d.toNat), (15, a.toNat), (10, o.toNat), (5, t.toNat), (0, c.toNat)]
  | .commit k a => place 0x76000001 [(31, k.toNat), (15, a.toNat)]
  | .decommit k a => place 0x76000002 [(31, k.toNat), (15, a.toNat)]
  | .copy k d a t c => place 0x54000000 [(31, k.toNat), (20, d.toNat), (15, a.toNat), (5, t.toNat), (0, c.toNat)]
  | .shuffle k d a t c => place 0x54000400 [(31, k.toNat), (20, d.toNat), (15, a.toNat), (5, t.toNat), (0, c.toNat)]
  | .ctrlv k q a => place 0x4ec00001 [(31, k.toNat), (20, q.toNat), (15, a.toNat)]
  | .ctxsv => place 0x74000000 []
  | .ctxld => place 0x74000001 []
  | .decr a => place 0x50000001 [(15, a.toNat)]
  | .detach k a => place 0x56000003 [(31, k.toNat), (15, a.toNat)]
  | .div k d a b n w => place 0x2000004 [(31, k.toNat), (20, d.toNat), (15, a.toNat), (10, b.toNat), (9, n.toNat), (8, w.toNat)]
  | .exit => place 0x1e000005 []
  | .extr k d a s l p => place 0x10000000 [(31, k.toNat), (20, d.toNat), (15, a.toNat), (13, s.toNat), (6, l.toNat), (0, p.toNat)]
  | .ins k d a l p => place 0x10001000 [(31, k.toNat), (20, d.toNat), (15, a.toNat), (6, l.toNat), (0, p.toNat)]
  | .fence k t r q s => place 0x2c000000 [(31, k.toNat), (5, t.toNat), (4, r.toNat), (3, q.toNat), (0, s.toNat)]
  | .free k a b => place 0x78000001 [(31, k.toNat), (15, a.toNat), (10, b.toNat)]
  | .gather k d a f s t c => place 0x46000000 [(31, k.toNat), (20, d.toNat), (15, a.toNat), (13, f.toNat), (10, s.toNat), (5, t.toNat), (0, c.toNat)]
  | .gatherp k d a m s t c => place 0x46004000 [(31, k.toNat), (20, d.toNat), (15, a.toNat), (13, m.toNat), (10, s.toNat), (5, t.toNat), (0, c.toNat)]
  | .get k d a t c => place 0x4c000000 [(31, k.toNat), (20, d.toNat), (15, a.toNat), (5, t.toNat), (0, c.toNat)]
  | .put k d a t c => place 0x4c000400 [(31, k.toNat), (20, d.toNat), (15, a.toNat), (5, t.toNat), (0, c.toNat)]
  | .idle => place 0x72000002 []
  | .idsort k d a b t => place 0x44000000 [(31, k.toNat), (20, d.toNat), (15, a.toNat), (10, b.toNat), (5, t.toNat)]
  | .merge k d a b t => place 0x44000001 [(31, k.toNat), (20, d.toNat), (15, a.toNat), (10, b.toNat), (5, t.toNat)]
  | .join a => place 0x1e000004 [(15, a.toNat)]
  | .jr k d a => place 0x1e000000 [(31, k.toNat), (20, d.toNat), (15, a.toNat)]
  | .ld k d a z h o => place 0x20000000 [(31, k.toNat), (20, d.toNat), (15, a.toNat), (12, z.toNat), (10, h.toNat), (0, o.toNat)]
  | .lda k d a z s o => place 0x28000000 [(31, k.toNat), (20, d.toNat), (15, a.toNat), (12, z.toNat), (7, s.toNat), (0, o.toNat)]
  | .ldv k d a h o => place 0x24007000 [(31, k.toNat), (20, d.toNat), (15, a.toNat), (10, h.toNat), (0, o.toNat)]
  | .lhi k d h i => place 0x12000000 [(31, k.toNat), (20, d.toNat), (18, h.toNat), (0, i.toNat)]
  | .loop k d o => place 0x1e000001 [(31, k.toNat), (20, d.toNat), (5, o.toNat)]
  | .min k d a b n w => place 0x200000e [(31, k.toNat), (20, d.toNat), (15, a.toNat), (10, b.toNat), (9, n.toNat), (8, w.toNat)]
  | .max k d a b n w => place 0x200000f [(31, k.toNat), (20, d.toNat), (15, a.toNat), (10, b.toNat), (9, n.toNat), (8, w.toNat)]
  | .mcmd k d a b c => place 0x64000000 [(31, k.toNat), (20, d.toNat), (15, a.toNat), (10, b.toNat), (0, c.toNat)]
  | .mfetch k d a c => place 0x66000000 [(31, k.toNat), (20, d.toNat), (15, a.toNat), (0, c.toNat)]
  | .mmul k d a c => place 0x60000000 [(31, k.toNat), (20, d.toNat), (15, a.toNat), (0, c.toNat)]
  | .mmuls k d a c => place 0x60000400 [(31, k.toNat), (20, d.toNat), (15, a.toNat), (0, c.toNat)]
  | .modeExposed => place 0x6c000021 []
  | .modeScoreboard => place 0x6c000001 []
  | .mrot k d a c => place 0x62000000 [(31, k.toNat), (20, d.toNat), (15, a.toNat), (0, c.toNat)]
  | .mul k d a b w => place 0x2000002 [(31, k.toNat), (20, d.toNat), (15, a.toNat), (10, b.toNat), (8, w.toNat)]
  | .mulh k d a b n w => place 0x2000003 [(31, k.toNat), (20, d.toNat), (15, a.toNat), (10, b.toNat), (9, n.toNat), (8, w.toNat)]
  | .next d => place 0x50000002 [(20, d.toNat)]
  | .nop => place 0x1e000002 []
  | .sub k d a b w => place 0x2000001 [(31, k.toNat), (20, d.toNat), (15, a.toNat), (10, b.toNat), (8, w.toNat)]
  | .rem k d a b n w => place 0x2000005 [(31, k.toNat), (20, d.toNat), (15, a.toNat), (10, b.toNat), (9, n.toNat), (8, w.toNat)]
  | .or k d a b w => place 0x2000007 [(31, k.toNat), (20, d.toNat), (15, a.toNat), (10, b.toNat), (8, w.toNat)]
  | .orImm k d a i => place 0x8000000 [(31, k.toNat), (20, d.toNat), (15, a.toNat), (0, i.toNat)]
  | .xor k d a b w => place 0x2000008 [(31, k.toNat), (20, d.toNat), (15, a.toNat), (10, b.toNat), (8, w.toNat)]
  | .xorImm k d a i => place 0xa000000 [(31, k.toNat), (20, d.toNat), (15, a.toNat), (0, i.toNat)]
  | .shl k d a b w => place 0x200000a [(31, k.toNat), (20, d.toNat), (15, a.toNat), (10, b.toNat), (8, w.toNat)]
  | .shr k d a b w => place 0x200000b [(31, k.toNat), (20, d.toNat), (15, a.toNat), (10, b.toNat), (8, w.toNat)]
  | .shra k d a b w => place 0x200000c [(31, k.toNat), (20, d.toNat), (15, a.toNat), (10, b.toNat), (8, w.toNat)]
  | .rot k d a b w => place 0x200000d [(31, k.toNat), (20, d.toNat), (15, a.toNat), (10, b.toNat), (8, w.toNat)]
  | .shlImm k d a w c => place 0xc000000 [(31, k.toNat), (20, d.toNat), (15, a.toNat), (8, w.toNat), (0, c.toNat)]
  | .shrImm k d a w c => place 0xc000040 [(31, k.toNat), (20, d.toNat), (15, a.toNat), (8, w.toNat), (0, c.toNat)]
  | .shraImm k d a w c => place 0xc000080 [(31, k.toNat), (20, d.toNat), (15, a.toNat), (8, w.toNat), (0, c.toNat)]
  | .rotImm k d a w c => place 0xc0000c0 [(31, k.toNat), (20, d.toNat), (15, a.toNat), (8, w.toNat), (0, c.toNat)]
  | .popc k d a w => place 0x2000012 [(31, k.toNat), (20, d.toNat), (15, a.toNat), (8, w.toNat)]
  | .sel k d a b w p => place 0x2000013 [(31, k.toNat), (20, d.toNat), (15, a.toNat), (10, b.toNat), (8, w.toNat), (5, p.toNat)]
  | .plog k d a b t => place 0x16000000 [(31, k.toNat), (20, d.toNat), (15, a.toNat), (10, b.toNat), (5, t.toNat)]
  | .pmov k d a m => place 0x16000001 [(31, k.toNat), (20, d.toNat), (15, a.toNat), (5, m.toNat)]
  | .pcnt k d a => place 0x16000002 [(31, k.toNat), (20, d.toNat), (15, a.toNat)]
  | .pset k d a => place 0x16000003 [(31, k.toNat), (20, d.toNat), (15, a.toNat)]
  | .pref k a o => place 0x2c000400 [(31, k.toNat), (15, a.toNat), (0, o.toNat)]
  | .qhist k a p t => place 0x6a000000 [(31, k.toNat), (17, a.toNat), (8, p.toNat), (4, t.toNat)]
  | .qscale k d a t => place 0x6a000001 [(31, k.toNat), (21, d.toNat), (17, a.toNat), (4, t.toNat)]
  | .rand k d => place 0x40000000 [(31, k.toNat), (20, d.toNat)]
  | .rskip k a => place 0x40000001 [(31, k.toNat), (15, a.toNat)]
  | .rstrm k a b => place 0x40000002 [(31, k.toNat), (15, a.toNat), (10, b.toNat)]
  | .rep m a s n => place 0x6c000000 [(20, m.toNat), (15, a.toNat), (10, s.toNat), (5, n.toNat)]
  | .rsys k d s => place 0x70000000 [(31, k.toNat), (20, d.toNat), (3, s.toNat)]
  | .wsys k a s => place 0x70000001 [(31, k.toNat), (15, a.toNat), (3, s.toNat)]
  | .rte => place 0x72000001 []
  | .trap a => place 0x72000000 [(15, a.toNat)]
  | .sample k d a t => place 0x42000000 [(31, k.toNat), (20, d.toNat), (15, a.toNat), (5, t.toNat)]
  | .scatter k d a s t c => place 0x48000000 [(31, k.toNat), (20, d.toNat), (15, a.toNat), (10, s.toNat), (5, t.toNat), (0, c.toNat)]
  | .scatadd k d a s t c => place 0x48004000 [(31, k.toNat), (20, d.toNat), (15, a.toNat), (10, s.toNat), (5, t.toNat), (0, c.toNat)]
  | .send k a b n => place 0x4e000000 [(31, k.toNat), (15, a.toNat), (10, b.toNat), (5, n.toNat)]
  | .ship k a b o => place 0x52000000 [(31, k.toNat), (15, a.toNat), (10, b.toNat), (5, o.toNat)]
  | .slot k n => place 0x5a000002 [(31, k.toNat), (5, n.toNat)]
  | .spawn d a b => place 0x1e000003 [(20, d.toNat), (15, a.toNat), (10, b.toNat)]
  | .st k d a z h o => place 0x22000000 [(31, k.toNat), (20, d.toNat), (15, a.toNat), (12, z.toNat), (10, h.toNat), (0, o.toNat)]
  | .stl k d a z s o => place 0x28000400 [(31, k.toNat), (20, d.toNat), (15, a.toNat), (12, z.toNat), (7, s.toNat), (0, o.toNat)]
  | .stv k d a h o => place 0x26007000 [(31, k.toNat), (20, d.toNat), (15, a.toNat), (10, h.toNat), (0, o.toNat)]
  | .tdef k n a b => place 0x58000000 [(31, k.toNat), (20, n.toNat), (15, a.toNat), (10, b.toNat)]
  | .tacq k n => place 0x58000001 [(31, k.toNat), (20, n.toNat)]
  | .trel k n => place 0x58000002 [(31, k.toNat), (20, n.toNat)]
  | .trelFill k n => place 0x58000022 [(31, k.toNat), (20, n.toNat)]
  | .tstat k d n => place 0x58000003 [(31, k.toNat), (20, d.toNat), (15, n.toNat)]
  | .task d a b => place 0x50000000 [(20, d.toNat), (15, a.toNat), (10, b.toNat)]
  | .tbind k n a => place 0x4a000000 [(31, k.toNat), (20, n.toNat), (15, a.toNat)]
  | .tstep k n => place 0x4a000001 [(31, k.toNat), (20, n.toNat)]
  | .vpub k a b => place 0x4a000002 [(31, k.toNat), (15, a.toNat), (10, b.toNat)]
  | .vswitch k a => place 0x4a000003 [(31, k.toNat), (15, a.toNat)]
  | .waitt k a => place 0x56000000 [(31, k.toNat), (15, a.toNat)]
  | .waittNt k d a => place 0x56000020 [(31, k.toNat), (20, d.toNat), (15, a.toNat)]
  | .testt k d a => place 0x56000001 [(31, k.toNat), (20, d.toNat), (15, a.toNat)]
  | .tinfo k d a s => place 0x56000005 [(31, k.toNat), (20, d.toNat), (15, a.toNat), (5, s.toNat)]
  | .tinfoResume k d a => place 0x56000065 [(31, k.toNat), (20, d.toNat), (15, a.toNat)]
  | .tlbi k a g s => place 0x76000000 [(31, k.toNat), (15, a.toNat), (8, g.toNat), (5, s.toNat)]
  | .vadd k d a b p t => place 0x30000000 [(31, k.toNat), (21, d.toNat), (17, a.toNat), (13, b.toNat), (8, p.toNat), (4, t.toNat)]
  | .vsub k d a b p t => place 0x30000001 [(31, k.toNat), (21, d.toNat), (17, a.toNat), (13, b.toNat), (8, p.toNat), (4, t.toNat)]
  | .vmul k d a b p t => place 0x30000002 [(31, k.toNat), (21, d.toNat), (17, a.toNat), (13, b.toNat), (8, p.toNat), (4, t.toNat)]
  | .vmin k d a b p t => place 0x30000003 [(31, k.toNat), (21, d.toNat), (17, a.toNat), (13, b.toNat), (8, p.toNat), (4, t.toNat)]
  | .vmax k d a b p t => place 0x30000004 [(31, k.toNat), (21, d.toNat), (17, a.toNat), (13, b.toNat), (8, p.toNat), (4, t.toNat)]
  | .vabs k d a p t => place 0x30000005 [(31, k.toNat), (21, d.toNat), (17, a.toNat), (8, p.toNat), (4, t.toNat)]
  | .vneg k d a p t => place 0x30000006 [(31, k.toNat), (21, d.toNat), (17, a.toNat), (8, p.toNat), (4, t.toNat)]
  | .vlogic k d a b p o => place 0x32000000 [(31, k.toNat), (21, d.toNat), (17, a.toNat), (13, b.toNat), (8, p.toNat), (0, o.toNat)]
  | .vsh k d a b p t o => place 0x32000008 [(31, k.toNat), (21, d.toNat), (17, a.toNat), (13, b.toNat), (8, p.toNat), (4, t.toNat), (0, o.toNat)]
  | .vcmp k d a b p t c => place 0x34000000 [(31, k.toNat), (21, d.toNat), (17, a.toNat), (13, b.toNat), (8, p.toNat), (4, t.toNat), (0, c.toNat)]
  | .vsel k d a b p t => place 0x34000008 [(31, k.toNat), (21, d.toNat), (17, a.toNat), (13, b.toNat), (8, p.toNat), (4, t.toNat)]
  | .vshuf k d a b => place 0x36000000 [(31, k.toNat), (21, d.toNat), (17, a.toNat), (13, b.toNat)]
  | .vbcast k d a p t => place 0x36000001 [(31, k.toNat), (21, d.toNat), (17, a.toNat), (8, p.toNat), (4, t.toNat)]
  | .vext k d a l t => place 0x36000002 [(31, k.toNat), (21, d.toNat), (17, a.toNat), (13, l.toNat), (4, t.toNat)]
  | .vins k d a l t => place 0x36000003 [(31, k.toNat), (21, d.toNat), (17, a.toNat), (13, l.toNat), (4, t.toNat)]
  | .vcvt k d a s c t p => place 0x38000000 [(31, k.toNat), (21, d.toNat), (17, a.toNat), (13, s.toNat), (9, c.toNat), (5, t.toNat), (0, p.toNat)]
  | .vfma k d a b c t p => place 0x3a000000 [(31, k.toNat), (21, d.toNat), (17, a.toNat), (13, b.toNat), (9, c.toNat), (5, t.toNat), (0, p.toNat)]
  | .vdot k d a b t p => place 0x3c000000 [(31, k.toNat), (21, d.toNat), (17, a.toNat), (13, b.toNat), (5, t.toNat), (0, p.toNat)]
  | .vmaci k d a b w t p => place 0x3c000000 [(31, k.toNat), (21, d.toNat), (17, a.toNat), (13, b.toNat), (9, w.toNat), (5, t.toNat), (0, p.toNat)]
  | .vred k d a o t => place 0x3e000000 [(31, k.toNat), (21, d.toNat), (17, a.toNat), (13, o.toNat), (4, t.toNat)]
  | .vrcp k d a p t => place 0x3e000001 [(31, k.toNat), (21, d.toNat), (17, a.toNat), (8, p.toNat), (4, t.toNat)]
  | .vrsq k d a p t => place 0x3e000002 [(31, k.toNat), (21, d.toNat), (17, a.toNat), (8, p.toNat), (4, t.toNat)]
  | .vexp2 k d a p t => place 0x3e000003 [(31, k.toNat), (21, d.toNat), (17, a.toNat), (8, p.toNat), (4, t.toNat)]
  | .vlog2 k d a p t => place 0x3e000004 [(31, k.toNat), (21, d.toNat), (17, a.toNat), (8, p.toNat), (4, t.toNat)]
  | .yield => place 0x1e000006 []
  | .qcfgClaim => 0
  | .qcfgRelease => 0
  | .qhclr => 0
  | .wdogWrite _ => 0
  | .registerWrite _ _ _ => 0
  | .lnotify _ _ => 0
  | .lcons _ _ => 0
  | .routbase _ _ _ => 0
  | .routineLoadDone _ => 0
  | .domload _ _ _ => 0
  | .domainLoadDone _ => 0
  | .gangStop _ => 0
  | .gangStopSave _ => 0
  | .restore _ => 0
  | .reissue _ => 0
  | .eqcons _ _ => 0
  | .create _ => 0
  | .creationDone => 0
  | .destroy _ => 0
  | .pcap _ => 0
  | .throttleUpdate => 0
  | .powerOn => 0
  | .firmwareUpdate _ => 0
  | .spdmMeasurements => 0
  | .deviceNumber _ => 0
  | .extentRelease _ => 0
  | .extentReleaseAck _ => 0
  | .forcedRevocation _ => 0
  | .rowRequest _ _ _ _ _ _ _ => 0
  | .rowReply _ _ _ _ _ => 0
  | .messageArrival _ => 0
  | .heldMessageAccept _ => 0
  | .handlerStart _ => 0
  | .faultEntry _ => 0
  | .ticketFaultEntry _ => 0
  | .taskRequest _ => 0
  | .taskAck _ => 0
  | .decrement _ => 0
  | .taskAging _ => 0
  | .engineGrant _ _ => 0
  | .ticketElementEnd _ _ => 0
  | .collectiveCombine _ _ => 0
  | .mrotShift _ => 0
  | .mcmdArrival _ => 0
  | .stepTagGrant _ => 0
  | .tstepRequest _ => 0
  | .rowUpdate _ => 0
  | .shipApply _ => 0
  | .weightSetRequest _ => 0
  | .homeAccess _ => 0
  | .lossNotice _ => 0
  | .registerWriteback _ _ _ => 0
  | .dividerRelease _ _ => 0
  | .barrierComplete _ _ => 0
  | .phaseClose _ => 0
  | .scheduledDeparture _ => 0
  | .scheduledArrival _ => 0
  | .hotPagePeriod => 0
  | .pageMoveSwitch _ => 0
  | .watchdog _ _ => 0
  | .uncorrectableError _ _ => 0
  | .correctedError _ => 0
  | .errorCountReport _ => 0
  | .illegalInstruction _ => 0
  | .instructionFetchFault => 0
  | .extentGrant _ _ _ => 0
  | .powerLoss => 0
  | .slotArm _ _ => 0

/-- The instruction word of a well-formed instruction. -/
def encode (i : Instr) : IWord := BitVec.ofNat 32 (encodeNat i)

/-- What the decoder reads from an instruction of the opcode table whose bits are w: every row is one 32-bit word,
stored little-endian. -/
def decodeTableWord (_nbits w : Nat) : Option Instr :=
  match decodeBytes (leBytes 4 w) with
  | .ok (i, _) => some i
  | .error _ => none

end Sys2Proof
end

