-- ==== Sys2Proof/Machine/Flags.lean ====
section
/-! DEFINITION. FLAGS and FCTL (R103, R104, R108, R109): the flag bits, the fields of the control word, and which raised
flags trap. -/
namespace Sys2Proof.Machine

/-- FLAGS bits (R104). -/
def fNX : Nat := 1
def fUF : Nat := 2
def fOF : Nat := 4
def fDZ : Nat := 8
def fNV : Nat := 16
def fISAT : Nat := 32
def fMETA : Nat := 64
def fORDV : Nat := 128

/-- A flag when the condition holds. -/
def flagIf (c : Bool) (f : Nat) : Nat := if c then f else 0

/-- The bits of FCTL that are not reserved (R103). -/
def fctlMask : Word := 0xFF07
/-- The bits of FLAGS that are not reserved (R104). -/
def flagsMask : Word := 0xFF
/-- FCTL.RM (R103). -/
def fctlRm (f : Nat) : Nat := fld f 0 2
/-- FCTL.FTZ (R103). -/
def fctlFtz (f : Nat) : Bool := bit f 2
/-- FCTL.EMETA (R103). -/
def fctlMeta (f : Nat) : Bool := bit f 14
/-- FCTL.EORDV (R103). -/
def fctlOrdv (f : Nat) : Bool := bit f 15
/-- Whether raised flags include one that FCTL[13:8] enables (R108, R109). -/
def flagsTrap (fctl flags : Nat) : Bool := fld fctl 8 6 &&& fld flags 0 6 != 0

end Sys2Proof.Machine
end

