-- ==== Sys2Proof/Machine/Float.lean ====
section
/-! DEFINITION. Number formats and exact arithmetic (R98 to R123): element formats, exact dyadic values, rounding in every
mode and policy with its flags, stochastic rounding, and the operations built from them. Elements are bit patterns. -/
namespace Sys2Proof.Machine

/-- A floating-point format (R99): exponent width, fraction width, bias, whether it has infinities, its largest finite
magnitude and canonical NaN. -/
structure Fmt where
  ebits : Nat
  fbits : Nat
  bias : Nat
  hasInf : Bool
  maxMag : Nat
  nan : Nat
  deriving DecidableEq, Repr

/-- The format of a float type code 8 to 13 (R98, R99, R100). -/
def fmtOf (t : Nat) : Fmt :=
  match t with
  | 8 => ⟨8, 23, 127, true, 0x7F7FFFFF, 0x7FC00000⟩
  | 9 => ⟨8, 7, 127, true, 0x7F7F, 0x7FC0⟩
  | 10 => ⟨5, 10, 15, true, 0x7BFF, 0x7E00⟩
  | 11 => ⟨4, 3, 7, false, 0x7E, 0x7F⟩
  | 12 => ⟨5, 2, 15, true, 0x7B, 0x7E⟩
  | _ => ⟨2, 1, 1, false, 7, 0⟩

/-- An exact value: NaN (signalling or not), infinity, or (−1)^neg · m · 2^e. -/
inductive FVal where
  | nan (signalling : Bool)
  | inf (neg : Bool)
  | fin (neg : Bool) (m : Nat) (e : Int)
  deriving DecidableEq, Repr

/-- The value of a bit pattern (R99, R100). -/
def fDec (t bits : Nat) : FVal :=
  let f := fmtOf t
  let neg := bit bits (f.ebits + f.fbits)
  let ex := fld bits f.fbits f.ebits
  let fr := fld bits 0 f.fbits
  let top := 2 ^ f.ebits - 1
  if f.hasInf && ex == top then
    if fr = 0 then .inf neg else .nan (!bit fr (f.fbits - 1))
  else if t = 11 && ex == top && fr == 7 then .nan false
  else if ex = 0 then .fin neg fr (1 - (f.bias : Int) - f.fbits)
  else .fin neg (2 ^ f.fbits + fr) ((ex : Int) - f.bias - f.fbits)

/-- Whether a pattern is a subnormal of its format. -/
def isSub (t bits : Nat) : Bool :=
  let f := fmtOf t
  fld bits f.fbits f.ebits == 0 && fld bits 0 f.fbits != 0

/-- The operand of a SIMD operation: a subnormal f32 or bf16 reads as zero under FTZ (R106). -/
def fIn (t : Nat) (ftz : Bool) (bits : Nat) : FVal :=
  match fDec t bits with
  | .fin n m e => if ftz && (t == 8 || t == 9) && isSub t bits then .fin n 0 e else .fin n m e
  | v => v

/-- Whether the magnitude rounds up (R105): rm 0 RNE, 1 RZ, 2 RU, 3 RD; q the kept part, r the discarded of 2^k. -/
def roundUp (rm : Nat) (neg : Bool) (q r k : Nat) (sticky : Bool) : Bool :=
  match rm with
  | 0 => 2 ^ k < 2 * r || (2 * r == 2 ^ k && k != 0 && (sticky || q % 2 == 1))
  | 1 => false
  | 2 => !neg && (r != 0 || sticky)
  | _ => neg && (r != 0 || sticky)

/-- The multiple of 2^Q nearest (m + δ)·2^e under the mode, and whether it is inexact. A sticky tail needs Q ≥ e. -/
def roundTo (rm : Nat) (neg : Bool) (m : Nat) (e Q : Int) (sticky : Bool) : Nat × Bool :=
  if Q ≤ e then (m * 2 ^ (e - Q).toNat + b2n (sticky && roundUp rm neg 0 0 0 true), sticky)
  else
    let k := (Q - e).toNat
    let q := m / 2 ^ k
    let r := m % 2 ^ k
    (q + b2n (roundUp rm neg q r k sticky), r != 0 || sticky)

/-- How a conversion treats overflow (R105): IEEE, saturating, or .ovf. -/
inductive Policy where
  | ieee
  | sat
  | ovf
  deriving DecidableEq, Repr

/-- The default policy of a destination (R86, R105). -/
def defaultPolicy (t : Nat) : Policy := if t ≤ 10 then .ieee else .sat

/-- A sign in its place. -/
def withSign (t : Nat) (neg : Bool) (mag : Nat) : Nat :=
  let f := fmtOf t
  mag + b2n neg * 2 ^ (f.ebits + f.fbits)

/-- The result of an overflow of a finite value (R105). R113's cells for `.ovf` name infinities; for a finite overflow with RM other than
RNE the model takes the value of R105 (DESIGN CHOICE, log 91). -/
def overflowBits (t rm : Nat) (pol : Policy) (neg : Bool) : Nat :=
  let f := fmtOf t
  let infBits := (2 ^ f.ebits - 1) * 2 ^ f.fbits
  let ieee := withSign t neg (match rm with
    | 0 => infBits
    | 1 => f.maxMag
    | 2 => if neg then f.maxMag else infBits
    | _ => if neg then infBits else f.maxMag)
  match pol with
  | .ieee => ieee
  | .sat => withSign t neg f.maxMag
  | .ovf => if t = 11 then f.nan else ieee

/-- Round of the finite value (−1)^neg · (m + δ) · 2^e to a format (R105, R106): pattern and flags. -/
def roundFin (t rm : Nat) (ftz : Bool) (pol : Policy) (neg : Bool) (m : Nat) (e : Int) (sticky : Bool) : Nat × Nat :=
  let f := fmtOf t
  if m = 0 && !sticky then (withSign t neg 0, 0)
  else
    let emin : Int := 1 - f.bias
    let ex : Int := e + log2N m
    let free := roundTo rm neg m e (ex - f.fbits) sticky
    let exr : Int := if 2 ^ (f.fbits + 1) ≤ free.1 then ex + 1 else ex
    let tiny := exr < emin
    if tiny && ftz && (t == 8 || t == 9) then (withSign t neg 0, fUF ||| fNX)
    else
      let Q := (if ex < emin then emin else ex) - f.fbits
      let r := roundTo rm neg m e Q sticky
      let mag := (Q - (emin - f.fbits)).toNat * 2 ^ f.fbits + r.1
      if f.maxMag < mag then (overflowBits t rm pol neg, fOF ||| fNX)
      else (withSign t neg mag, flagIf r.2 fNX ||| flagIf (tiny && r.2) fUF)

/-- The pattern of an infinity under a policy (R113). -/
def infinityBits (t : Nat) (pol : Policy) (neg : Bool) : Nat × Nat :=
  let f := fmtOf t
  if f.hasInf && pol != .sat then (withSign t neg ((2 ^ f.ebits - 1) * 2 ^ f.fbits), 0)
  else if pol = .ovf && t = 11 then (f.nan, fOF ||| fNX)
  else (withSign t neg f.maxMag, fOF ||| fNX)

/-- The pattern of a NaN (R100, R113): e2m1 has none and takes +0 with NV. -/
def nanBits (t : Nat) (signalling : Bool) : Nat × Nat :=
  if t = 13 then (0, fNV) else ((fmtOf t).nan, flagIf signalling fNV)

/-- Round of an exact value to a format. -/
def fPut (t rm : Nat) (ftz : Bool) (pol : Policy) : FVal → Nat × Nat
  | .nan sg => nanBits t sg
  | .inf neg => infinityBits t pol neg
  | .fin neg m e => roundFin t rm ftz pol neg m e false

/-- The signed integer of a value scaled to exponent e0 ≤ e. -/
def scaledInt (neg : Bool) (m : Nat) (e e0 : Int) : Int :=
  let x : Int := (m * 2 ^ (e - e0).toNat : Nat)
  if neg then -x else x

/-- The exact value of a signed integer times 2^e; zero takes the given sign. -/
def ofScaled (x : Int) (e : Int) (zeroNeg : Bool) : FVal := .fin (if x = 0 then zeroNeg else x < 0) x.natAbs e

/-- Exact sum; an exact zero of two non-zero operands is −0 only under RD. The flag says NV. -/
def exAdd (rm : Nat) (a b : FVal) : FVal × Bool :=
  match a, b with
  | .nan s, .nan u => (.nan false, s || u)
  | .nan s, _ => (.nan false, s)
  | _, .nan s => (.nan false, s)
  | .inf n, .inf k => if n = k then (.inf n, false) else (.nan false, true)
  | .inf n, _ => (.inf n, false)
  | _, .inf n => (.inf n, false)
  | .fin n m e, .fin k w d =>
    let e0 := if e ≤ d then e else d
    let zneg := if n = k then n else rm == 3
    (ofScaled (scaledInt n m e e0 + scaledInt k w d e0) e0 zneg, false)

/-- Exact product. -/
def exMul (a b : FVal) : FVal × Bool :=
  match a, b with
  | .nan s, .nan u => (.nan false, s || u)
  | .nan s, _ => (.nan false, s)
  | _, .nan s => (.nan false, s)
  | .inf n, .inf k => (.inf (n != k), false)
  | .inf n, .fin k w _ => if w = 0 then (.nan false, true) else (.inf (n != k), false)
  | .fin n m _, .inf k => if m = 0 then (.nan false, true) else (.inf (n != k), false)
  | .fin n m e, .fin k w d => (.fin (n != k) (m * w) (e + d), false)

/-- The opposite value. -/
def FVal.neg : FVal → FVal
  | .nan s => .nan s
  | .inf n => .inf (!n)
  | .fin n m e => .fin (!n) m e

/-- Whether a value is a NaN. -/
def FVal.isNan : FVal → Bool
  | .nan _ => true
  | _ => false

/-- Whether a value is a signalling NaN. -/
def FVal.isSig : FVal → Bool
  | .nan s => s
  | _ => false

/-- Order of two values that are no NaN, with −0 = +0: −1, 0 or 1. -/
def FVal.cmp (a b : FVal) : Int :=
  match a, b with
  | .inf n, .inf k => if n = k then 0 else if n then -1 else 1
  | .inf n, _ => if n then -1 else 1
  | _, .inf k => if k then 1 else -1
  | .fin n m e, .fin k w d =>
    let e0 := if e ≤ d then e else d
    let x := scaledInt n m e e0
    let y := scaledInt k w d e0
    if x < y then -1 else if y < x then 1 else 0
  | _, _ => 0

/-- Finishes an operation: rounding, and NV where the exact step found it. -/
def fFin (t rm : Nat) (ftz : Bool) (r : FVal × Bool) : Nat × Nat :=
  let q := fPut t rm ftz (defaultPolicy t) r.1
  (q.1, q.2 ||| flagIf r.2 fNV)

/-- Round(a + b, t, rm) (R417). -/
def fAdd (t rm : Nat) (ftz : Bool) (a b : Nat) : Nat × Nat := fFin t rm ftz (exAdd rm (fIn t ftz a) (fIn t ftz b))
/-- Round(a − b, t, rm). -/
def fSub (t rm : Nat) (ftz : Bool) (a b : Nat) : Nat × Nat :=
  fFin t rm ftz (exAdd rm (fIn t ftz a) (fIn t ftz b).neg)
/-- Round(a × b, t, rm). -/
def fMul (t rm : Nat) (ftz : Bool) (a b : Nat) : Nat × Nat := fFin t rm ftz (exMul (fIn t ftz a) (fIn t ftz b))

/-- a × b + c with one rounding (R121): the product 0 × ∞ is NV and NaN even when c is a NaN. -/
def fFma (t rm : Nat) (ftz : Bool) (a b c : FVal) : Nat × Nat :=
  let p := exMul a b
  let s := exAdd rm p.1 c
  fFin t rm ftz (s.1, p.2 || s.2)

/-- Minimum and maximum of R118: a NaN gives the canonical NaN; −0 is below +0. -/
def fMinMax (isMax : Bool) (t : Nat) (ftz : Bool) (a b : Nat) : Nat × Nat :=
  let x := fIn t ftz a
  let y := fIn t ftz b
  if x.isNan || y.isNan then ((fmtOf t).nan, flagIf (x.isSig || y.isSig) fNV)
  else
    let c := x.cmp y
    let xNeg := match x with | .fin n _ _ => n | .inf n => n | .nan _ => false
    let first := if c = 0 then (if isMax then !xNeg else xNeg) else if isMax then 0 < c else c < 0
    (fPut t 0 false (defaultPolicy t) (if first then x else y))

/-- Integer square root, by bits. -/
def isqrtAux (n : Nat) : Nat → Nat → Nat
  | 0, r => if (r + 1) * (r + 1) ≤ n then r + 1 else r
  | b + 1, r => isqrtAux n b (if (r + 2 ^ (b + 1)) * (r + 2 ^ (b + 1)) ≤ n then r + 2 ^ (b + 1) else r)

/-- Integer square root. -/
def isqrt (n : Nat) : Nat := isqrtAux n (log2N n / 2 + 1) 0

/-- Round(x / y) of two finite non-zero values, one rounding of the exact quotient (R313, R123). -/
def fQuot (t rm : Nat) (pol : Policy) (neg : Bool) (m : Nat) (e : Int) (w : Nat) (d : Int) : Nat × Nat :=
  let k := 80 + log2N w
  let n := m * 2 ^ k
  roundFin t rm false pol neg (n / w) (e - d - k) (n % w != 0)

/-- Division of two values under IEEE rules (R193). R104 lists DZ for VRCP, VRSQ and VLOG2 only; a division by zero raises it here too
(DESIGN CHOICE, log 81). -/
def fDiv (t rm : Nat) (a b : FVal) : Nat × Nat :=
  match a, b with
  | .nan s, .nan u => ((fmtOf t).nan, flagIf (s || u) fNV)
  | .nan s, _ => ((fmtOf t).nan, flagIf s fNV)
  | _, .nan s => ((fmtOf t).nan, flagIf s fNV)
  | .inf _, .inf _ => ((fmtOf t).nan, fNV)
  | .inf n, .fin k _ _ => infinityBits t .ieee (n != k)
  | .fin n _ _, .inf k => (withSign t (n != k) 0, 0)
  | .fin n m e, .fin k w d =>
    if w = 0 then (if m = 0 then ((fmtOf t).nan, fNV) else ((infinityBits t .ieee (n != k)).1, fDZ))
    else if m = 0 then (withSign t (n != k) 0, 0)
    else fQuot t rm (defaultPolicy t) (n != k) m e w d

/-- Round(sqrt x) under IEEE rules (R193). -/
def fSqrt (t rm : Nat) (a : FVal) : Nat × Nat :=
  match a with
  | .nan s => ((fmtOf t).nan, flagIf s fNV)
  | .inf n => if n then ((fmtOf t).nan, fNV) else infinityBits t .ieee false
  | .fin n m e =>
    if m = 0 then (withSign t n 0, 0)
    else if n then ((fmtOf t).nan, fNV)
    else
      let k := 120 + ((e + 120) % 2).toNat
      let x := m * 2 ^ k
      let r := isqrt x
      roundFin t rm false (defaultPolicy t) false r ((e - k) / 2) (r * r != x)

/-- PrecOf and EminOf (R115). -/
def precOf (t : Nat) : Nat := (fmtOf t).fbits + 1
def eminOf (t : Nat) : Int := 1 - (fmtOf t).bias

/-- The magnitude that stochastic rounding gives (R115), as a multiple of 2^Q, and whether it is inexact. -/
def srMag (m : Nat) (e Q : Int) (r w : Nat) : Nat × Bool :=
  if Q ≤ e then (m * 2 ^ (e - Q).toNat, false)
  else
    let k := (Q - e).toNat
    let d := m % 2 ^ k
    if d = 0 then (m / 2 ^ k, false)
    else
      let rk := r % 2 ^ (if k < w then k else w)
      (m / 2 ^ k + b2n (2 ^ k ≤ d + rk), true)

/-- SRound of a value to a float format (R113, R115). -/
def sRound (t : Nat) (v : FVal) (r w : Nat) : Nat × Nat :=
  match v with
  | .fin neg m e =>
    if m = 0 then (withSign t neg 0, 0)
    else
      let ex : Int := e + log2N m
      let Q := (if ex < eminOf t then eminOf t else ex) - precOf t + 1
      let y := srMag m e Q r w
      let f := fmtOf t
      if !y.2 && Q ≤ e then roundFin t 0 false (defaultPolicy t) neg m e false
      else
        let mag := (Q - (eminOf t - f.fbits)).toNat * 2 ^ f.fbits + y.1
        if f.maxMag < mag then (overflowBits t 0 (defaultPolicy t) neg, fOF ||| fNX)
        else (withSign t neg mag, flagIf y.2 fNX ||| flagIf (y.2 && mag < 2 ^ f.fbits) fUF)
  | v => fPut t 0 false (defaultPolicy t) v

/-- A clamped integer of w bits, as a pattern, and whether it was clamped. -/
def clampInt (x : Int) (w : Nat) (isSigned : Bool) : Nat × Bool :=
  let lo : Int := if isSigned then -(2 ^ (w - 1) : Nat) else 0
  let hi : Int := if isSigned then (2 ^ (w - 1) : Nat) - 1 else (2 ^ w : Nat) - 1
  if x < lo then (wrapN lo w, true) else if hi < x then (wrapN hi w, true) else (wrapN x w, false)

/-- Float to integer (R114): .sr with a random field, or by the mode. -/
def fToInt (v : FVal) (w : Nat) (isSigned : Bool) (rm : Nat) (sr : Option (Nat × Nat)) : Nat × Nat :=
  match v with
  | .nan _ => (0, fNV)
  | .inf n => ((clampInt (if n then -(2 ^ 130 : Nat) else (2 ^ 130 : Nat)) w isSigned).1, fNV)
  | .fin n m e =>
    let q := match sr with
      | none => roundTo rm n m e 0 false
      | some (r, rw) => srMag m e 0 r rw
    let c := clampInt (if n then -(q.1 : Int) else q.1) w isSigned
    (c.1, if c.2 then fNV else flagIf q.2 fNX)

/-- The value of an integer lane. -/
def intVal (t bits : Nat) : Int := if t < 4 then signed bits (8 * 2 ^ (t % 4)) else (bits : Int)

/-- The exact value of an integer. -/
def FVal.ofInt (x : Int) : FVal := .fin (x < 0) x.natAbs 0

end Sys2Proof.Machine
end

