-- ==== Sys2Proof/Config.lean ====
section
/-! DEFINITION. What an implementation fixes or what the spec leaves open: free values, each an opaque constant with no
body. Nothing can be proved about their values (assumption log 6, 10 to 12, 15 to 19, 48). -/
namespace Sys2Proof.Config

/-- The free choices of the device: which pending move comes next, and every other choice that the spec leaves to the
device. The argument is the state's counter of free choices (log 6). -/
opaque choice : Nat → Nat

/-- EQBASE of the device error queue, SQBASE of the supervisor queue, and EQBASE of partition n: HBM addresses that are
fixed by the device (R286, R287; log 10). -/
opaque eqBase : Word
opaque sqBase : Word
opaque partEqBase : Nat → Word

/-- A register value after the restore of a pending-writes block that is no save of the same slot (R283; log 15). -/
opaque restoredReg : Nat → BitVec 128

/-- A register value that the spec leaves undefined otherwise (log 15). -/
opaque freeReg : Nat → Word

/-- Measurement of a firmware image: SHA-256 of its bytes (R295; log 16). -/
opaque sha256 : List Byte → BitVec 256

/-- Whether the LMS signature of an image verifies (R295; log 16). -/
opaque lmsValid : List Byte → Bool

/-- The throttle numerator that Rosby's control law chooses (R297; log 17); the device bounds it by 48. -/
opaque throttle : Nat → Nat

/-- Whether the fabric has a route from the device with one number to another (R238; log 18). -/
opaque fabricReaches : Nat → Nat → Bool

/-- Whether two scheduled transfers, each from one core to another, share a Tulle link (R228; log 48). -/
opaque linkShared : (source target source' target' : Nat) → Bool

/-- The remote contents that another device returns for a far request (log 18). -/
opaque remoteRow : Nat → List Byte

end Sys2Proof.Config
end

