-- ==== Sys2Proof/Machine/State.lean ====
section
/-! DEFINITION. The machine state: everything that the spec gives the device, as plain data. Registers that software reads
as words are bit vectors; modes, slots, queues and requests in flight are structured data. INVENTORY.md, "State", names
the rule of each field. -/
namespace Sys2Proof.Machine

/-- Memory: (storage key, byte) pairs, keys strictly rising, no zero byte listed. An unlisted byte reads zero (log 1).
The keys of the storages are those of Machine/Mem.lean. -/
abbrev Memory := List Host.Cell

/-- A register of a strand, as the destination of a pending write (R257). -/
inductive Reg where
  | x (i : Nat)
  | v (i : Nat)
  | p (i : Nat)
  deriving DecidableEq, Repr

/-- A pending register write (R257): its value once known, and the issue turns left in exposed mode. `none` turns is an
interlocked write. -/
structure Pend where
  reg : Reg
  rid : Nat
  val : Option (BitVec 128)
  turns : Option Nat
  deriving DecidableEq, Repr

/-- The fault record of a suspended strand (R273, R282): resume is the PC that RTE returns to (R271). -/
structure FaultRec where
  cause : Nat
  faddr : Word
  fpc : Addr
  deriving DecidableEq, Repr

/-- What a word of a strand's next bundle has done so far while it waits (R37). The word is executed again when the
condition holds. -/
inductive Hold where
  /-- Request rid has been sent; the strand waits for its reply, or has it: a value, or a cause with its address. -/
  | reply (rid : Nat)
  | replied (val : Word) (fault : Option (Nat × Word))
  /-- The core has arrived at a barrier instance with this vote (R222), or the instance has completed: the AND and the OR
  of its votes. -/
  | barrier (die dom : Nat) (vote : Option Bool)
  | released (allVotes anyVote : Bool)
  /-- SLOT waits for its arming cycle, or has armed (R225). -/
  | slot (n : Nat)
  | armed
  /-- IDLE waits for a message placed after its issue, or has seen one (R361). -/
  | idle
  | woken
  /-- A SAMPLE in progress, with the VSEL of its issue (R267). -/
  | sample (vsel : Word)
  /-- WAITT or WAITT.nt waits on a ticket slot and generation (R207). -/
  | waitt (tslot gen : Nat)
  /-- The waited ticket has ended: its state and flags (R207). -/
  | observed (tslot gen st flags : Nat)
  /-- ADOPT has renamed the waited ticket to this generation (R318). -/
  | stale (tslot gen : Nat)
  /-- EXIT, or NEXT (`next`), waits for its attached tickets (R208). -/
  | implicit (next : Bool)
  /-- CTXSV or CTXLD waits for the core to come to rest (R346). -/
  | ctx
  /-- NEXT or SPAWN waits; it is executed again from its first step (R52). -/
  | restart
  /-- TLBI waits for the requests before rid to be performed (R154). -/
  | tlbi (rid : Nat)
  /-- MODE has issued (R380). -/
  | mode
  /-- AZERO or ACVT waits at the array since arrival rid, with the ranges that it reads and writes (R243). -/
  | array (rid : Nat) (reads writes : List (Nat × Nat))
  /-- A table word has taken these tiles, the destination and the sources (R355): it waits for its destination or a ticket slot; for
  the grant of its step tag, asked for with request rid; or it has the tag that the home of this descriptor has granted (R194). -/
  | tiles (dst : Option Nat) (srcs : List Nat)
  | tilesAsked (dst : Option Nat) (srcs : List Nat) (rid : Nat)
  | tilesGranted (dst : Option Nat) (srcs : List Nat) (desc : Nat) (tag : Word)
  deriving DecidableEq, Repr

/-- The state of a repetition in progress (R258, R259): address of the REP, body words, stride, mask, the pass number,
passes remaining, the body position, and the run-ahead words that have issued. -/
structure Rep where
  base : Addr
  words : List IWord
  stride : Nat
  mask : Nat
  pass : Nat
  remaining : Nat
  pos : Nat
  ahead : Nat
  deriving DecidableEq, Repr

/-- The virtual-address side of a request: where a strand's or an engine's access goes. -/
inductive Home where
  /-- A core's scratchpad byte (R129). -/
  | scratch (cn off : Nat)
  /-- A scratchpad byte of a core of another device (R238), and the multicast window of another device (R131). -/
  | remote (dev cn off : Nat)
  | remoteMcast (dev : Nat)
  /-- Every member of domain dom of a die (R131); a store through it is sent to each member's scratchpad. -/
  | mcast (die dom off : Nat)
  /-- The core that loses a word (R169). -/
  | owner (cn : Nat)
  /-- Chip scratchpad of a slice (R132). -/
  | chip (cn off : Nat)
  /-- A line of regions 0x0 to 0x2 at its home slice, with the policy and the home field of its page (R134, R138, R141). -/
  | line (pa cn pol hf : Nat)
  /-- A device register (R286). -/
  | dev (page off : Nat)
  deriving DecidableEq, Repr

/-- A message (R230, R282): target word, source DEV and CN, payload of up to four words, and the cycle at which it arrived at
its target (R293). -/
structure Msg where
  target : Word
  srcDev : Nat
  srcCn : Nat
  payload : List Word
  arrived : Nat
  deriving DecidableEq, Repr

/-- A row update of SCATTER or SCATADD (R191): the row by device-physical address, the table parameters that the update
needs, the operation, and the ticket that sent it. -/
structure RowUpd where
  /-- The 16-byte units of the row: physical address, home field and policy of the page. -/
  units : List (Nat × Nat × Nat)
  op : Nat
  fmt : Nat
  lr : Nat
  eps : Nat
  ukey : Word
  id : Nat
  tag : Option Nat
  desc : Nat
  mode : Nat
  data : List Byte
  cn : Nat
  tslot : Nat
  seq : Nat
  elem : Nat
  fctl : Nat
  part : Nat
  deriving DecidableEq, Repr

/-- What a request asks of its home (R165). -/
inductive ReqOp where
  /-- A load of n bytes through window win, extended by size code sz (R366); registers take it by `pend`. -/
  | load (n win sz hint : Nat)
  /-- LDA: a load at the home that refreshes the copy (R369). -/
  | loadAcq (n sz scope : Nat)
  /-- A store of raw bytes (R406); a multicast store is one request per member (R131). -/
  | store (bytes : List Byte) (hint : Nat) (multicast : Bool)
  /-- AMO and CAS (R322, R332). -/
  | amo (n op : Nat) (v : Nat)
  | cas (n : Nat) (cmpv newv : Nat)
  /-- CFLUSH, CINV and PREF (R334, R388). -/
  | cflush
  | cinv
  | pref
  /-- SHIP on its way to the home, and at the update engine (R401). -/
  | ship (op : Nat) (v : Nat) (atEngine : Bool)
  /-- The loss notice of a word, whose home slice is core homeCn's, and the core that takes the word (R169). -/
  | loss (word toCn homeCn : Nat) (taker : Option Nat)
  /-- A message (R230). -/
  | send (m : Msg)
  /-- TASK's request with its 24-byte specification, and the acknowledgement or refusal (R42). -/
  | task (off : Nat) (spec : List Byte) (sup : Bool)
  | taskAck (handle : Word) (fault : Option (Nat × Word))
  /-- DECR's decrement of a handle (R43). -/
  | decr (handle : Word)
  /-- The step tag request of a table ticket, and TSTEP, which may wait at the home (R194, R195). -/
  | stepTag (desc : Nat)
  | tstep (desc mode k : Nat) (seq : Nat) (waits : Bool)
  /-- VPUB, VSWITCH and the reference changes of TBIND, at the weight-set descriptor (R198 to R202). -/
  | vpub (desc : Nat) (ver : Nat)
  | vswitch (ver : Nat)
  | setRef (half : Nat)
  /-- 16-byte units that an engine reads and writes one after the other, each from a home to a home, with the address that it
  writes (R176, R216); the request's own address is the one that it reads. -/
  | move (units : List (Home × Home)) (to_ : Word)
  /-- A row update (R191). -/
  | row (u : RowUpd)
  /-- A row request for another device (R239). -/
  | rowReq (dev table id ver tslot elem : Nat)
  /-- MCMD's command to a dense tile (R251). -/
  | mcmd (target cap kind : Nat) (cmd : List Byte) (tslot gen : Nat)
  deriving DecidableEq, Repr

/-- A request in flight. `src` is the sending core, `slot` its strand slot (12 for an engine); `due` is the cycle at
which a local or departed scheduled request is performed; `depart` the slot cycle of an armed operation (R226). -/
structure Req where
  rid : Nat
  src : Nat
  slot : Nat
  part : Nat
  sup : Bool
  va : Word
  fpc : Addr
  home : Home
  op : ReqOp
  og : Option Nat
  depart : Option Nat
  due : Option Nat
  deriving DecidableEq, Repr

/-- An entry of a neighbour queue (R236). -/
structure QEntry where
  tag : Bool
  val : VWord
  deriving DecidableEq, Repr

/-- The ordered operations of an order group that wait for the replay of a faulted atomic (R181, R275): those of the strand with a
request number above the atomic's and, once the strand is suspended, below the first that its replay can have. -/
structure OrdHold where
  og : Nat
  after : Nat
  upto : Option Nat
  deriving DecidableEq, Repr

/-- What a bundle changes outside its strand's registers when its writes become visible (R39): a system register of the core or
the partition, or an entry pushed through a port. -/
inductive Late where
  | sys (n : Nat) (v : Word)
  | push (port : Nat) (e : QEntry)
  deriving DecidableEq, Repr

/-- The states of a tile (R143). -/
inductive TileState where
  | empty
  | filling
  | ready
  | draining
  deriving DecidableEq, Repr

/-- A tile descriptor (R143). -/
structure Tile where
  readers : Nat
  st : TileState
  bytes : Nat
  base : Nat
  deriving DecidableEq, Repr

/-- The policy version selector (R199). -/
structure Vsel where
  sel : Nat
  follow : Bool
  ver : Nat
  deriving DecidableEq, Repr

/-- A later turn of a bundle that issues over several, or the place of a word that waits for what the words before it do (R39, R61):
the requests of its word; the first request number that is the word's and the first that is not, so that a ticket with a number
between is not yet sent; the index of the word if it is executed in this turn, with the tiles that later words have changed, as they
stand for it; and whether the word starts the divider (R257). -/
structure Turn where
  first : Nat
  last : Nat
  reqs : List Req
  word : Option Nat
  tiles : List (Nat × Tile)
  divides : Bool
  deriving DecidableEq, Repr

/-- A bundle of which a word waits for what the words before it do (R61, R172): its words, the first request number of the bundle and
the first after its first turn, whether it issues over several turns, VSEL as its words read it, the flags raised, the next PC, what
becomes visible at its end, the cause that follows it, and the registers as its words leave them. The strand itself keeps the registers
that the bundle's words read. -/
structure Mid where
  words : List IWord
  since : Nat
  upto : Nat
  wide : Bool
  vsel : Vsel
  flags : Nat
  target : Option Addr
  late : List Late
  after : Option (Nat × Word)
  x : Vector Word 32
  v : Vector VWord 16
  p : Vector PWord 24
  fctl : Word
  status : Word
  rkey : Word
  sid : Word
  draw : Word
  arm : Option Nat
  deriving DecidableEq, Repr

/-- A strand slot (R30, R54). -/
structure Strand where
  live : Bool
  pc : Addr
  sup : Bool
  x : Vector Word 32
  v : Vector VWord 16
  p : Vector PWord 24
  fctl : Word
  flags : Word
  rkey : Word
  sid : Word
  draw : Word
  susp : Option FaultRec
  /-- A refusal of a posted access, raised when the strand's bundle has ended (R61, R233, R407). -/
  refusal : Option FaultRec
  /-- The ordered operations that a refused atomic holds (R181, R275). -/
  ordHeld : List OrdHold
  inEntry : Bool
  /-- The waits of the words of the next bundle, by word address. -/
  holds : List (Addr × Hold)
  /-- The request whose reply the strand waits for after its bundle (LDA, R369). -/
  await : Option Nat
  pend : List Pend
  arm : Option Nat
  rep : Option Rep
  rest : List Turn
  /-- What becomes visible at the last turn of the bundle (R39). -/
  late : List Late
  /-- The bundle of which a word waits (R61). -/
  mid : Option Mid
  /-- The words of a bundle that has begun to wait: they are not fetched again (R37, R52). -/
  fetched : List IWord
  divFree : Nat
  notReady : Nat
  yielded : Bool
  /-- The strand's next fetch is the target of a taken branch (R59, R60). -/
  jumped : Bool
  deriving DecidableEq, Repr

/-- The states of a ticket (R205). -/
inductive TicketState where
  | pending
  | done
  | faulted
  | cancelled
  deriving DecidableEq, Repr

/-- A slot of the ticket table with its resumable record (R205, R214). The last fields are the engine's own: an element
is running, the update or reply that the running element has received, the command of an MCMD at its target, the order of
issue and the order of arrival at the engine. -/
structure Ticket where
  gen : Nat
  st : TicketState
  live : Bool
  parked : Bool
  det : Bool
  cxl : Bool
  owner : Nat
  /-- The strand slot that issued the ticket, and whether that strand has ended (R353). -/
  issuer : Nat
  past : Bool
  prio : Nat
  og : Nat
  cause : Nat
  tflags : Nat
  dtile : Option Nat
  stile : Option Nat
  stile2 : Option Nat
  faddr : Word
  elem : Nat
  fctl : Nat
  sup : Bool
  sel : Nat
  word : IWord
  seq : Nat
  xa : Word
  xb : Word
  bind : Word
  tag : Word
  pc : Addr
  entryWaits : Bool
  /-- The selector bit counts as a reference to a half of the followed weight set (R199). -/
  refs : Bool
  /-- An observation retires the slot once every waiting strand has observed the end (R207). -/
  retire : Bool
  /-- A strand was waiting when the ticket ended, so that DET does not free it (R207). -/
  seen : Bool
  running : Bool
  answer : Option (Nat × List Byte)
  cmd : List Byte
  target : Option Nat
  order : Nat
  arrive : Nat
  /-- The ticket has touched another device (R178). -/
  fabric : Bool
  /-- The end of the running element with its flags, while writes of its own lose ownership elsewhere (R165, R178). -/
  ending : Option (Nat × Bool)
  /-- A matched MROT of another member has ended without its shift (R250). -/
  doomed : Bool
  /-- The number of the match that an MROT is part of, once every member's has come (R250). -/
  rot : Option Nat
  deriving DecidableEq, Repr

/-- A table slot with its binding (R183): the 48 descriptor bytes with STEP zero, the descriptor's address, and the
captured pair. -/
structure Binding where
  desc : List Byte
  addr : Word
  sel : Nat
  ver : Nat
  deriving DecidableEq, Repr

/-- A word of a near cache (R140, R169). -/
structure NearWord where
  val : Word
  owned : Bool
  home : Nat
  deriving DecidableEq, Repr

/-- A cached translation or table pointer (R151, R152): partition, level, address prefix, selector bit of a versioned
leaf, and the entry. -/
structure TlbEntry where
  part : Nat
  level : Nat
  tag : Nat
  sel : Nat
  pte : Word
  deriving DecidableEq, Repr

/-- What the handler strand is serving (R273, R274). -/
inductive HandlerRun where
  | idle
  | message
  | strand (slot : Nat)
  | ticket (tslot : Nat)
  deriving DecidableEq, Repr

/-- The open exchange phase of a core (R224): B and the owned-slot bitmap. -/
structure Phase where
  dom : Nat
  f : Nat
  b : Nat
  nslot : Nat
  owned : List Byte
  deriving DecidableEq, Repr

/-- The system registers of a core that hold their own value (R57). -/
structure CoreRegs where
  lost : Bool
  lostCnt : Nat
  claim : Option Nat
  qhnd : Word
  qcode : Word
  cause : Word
  faddr : Word
  fpc : Word
  fslot : Word
  htab : Word
  fhnd : Word
  wdog : Word
  ctxbase : Word
  perm : Vector Word 16
  bdtab : Word
  sltab : Word
  exposed : Bool
  deriving DecidableEq, Repr

/-- A core: a bobbin core or a dense sequencer (R18, R21). -/
structure Core where
  strands : Vector Strand 12
  tiles : Vector Tile 32
  tickets : Vector Ticket 64
  tslots : Vector (Option Binding) 8
  regs : CoreRegs
  inbox : List Msg
  heldIn : List Msg
  queues : Vector (List QEntry) 4
  near : List (Nat × NearWord)
  microTlb : List TlbEntry
  lastP : Nat
  handlerLast : Bool
  /-- The queued task records of each level, by scratchpad offset, with the cycle of entry (R40, R45). -/
  runList : Vector (List (Nat × Nat)) 4
  run : HandlerRun
  hist : Vector Nat 64
  seq : Nat
  tstepSeq : Nat
  phase : Option Phase
  /-- The slot bitmaps that the core has read at its arrivals, by domain (R224). -/
  slotMap : List (Nat × List Byte)
  /-- Positions used in the weighted rounds of the copy, table, collective and array engines (R49). -/
  wrr : Vector Nat 4
  /-- Refused user-mode writes since the last KIND 11 record (R233). -/
  refused : Nat
  /-- MROTs that other members have ended without a shift before this core issued its matching ones (R250). -/
  mrotLost : Nat
  deriving DecidableEq, Repr

/-- An L2 line (R134, R141, R285): data, the mask of dirty bytes, poison, first-victim mark. -/
structure Line where
  data : List Byte
  dirty : Nat
  poison : Bool
  victim : Bool
  deriving DecidableEq, Repr

/-- A loaded barrier domain (R220, R222). `arrived` are the cores that have arrived at the current instance, with the
votes of its BARVs. -/
structure Domain where
  part : Nat
  clusters : BitVec 512
  cores : BitVec 32
  dense : BitVec 16
  sched : Bool
  paired : Bool
  pair : Nat
  nslot : Nat
  nphase : Nat
  count : Nat
  arrived : List Nat
  votes : List Bool
  deriving DecidableEq, Repr

/-- An error queue (R292). -/
structure Queue where
  prod : Nat
  cons : Nat
  drops : Nat
  deriving DecidableEq, Repr

/-- Partition status (R277, R279). -/
inductive PartStatus where
  | running
  | stopping
  | saved
  | fatal
  deriving DecidableEq, Repr

/-- The start values that the creation record gives every core (R289, R290). -/
structure Template where
  fctl : Word
  rkey : Word
  htab : Word
  fhnd : Word
  wdog : Word
  bdtab : Word
  sltab : Word
  perm : Vector Word 16
  ctxbase0 : Word
  entry : Addr
  deriving DecidableEq, Repr

/-- A partition (R28, R288 to R292). -/
structure Part where
  key : Nat
  clusters : List Nat
  dense : List Nat
  conv : Nat
  migrate : Bool
  ringBase : Word
  ringLog : Nat
  ptroot : Word
  fpool : Word
  alist : Word
  /-- ALIST of the creation record (R290). -/
  alist0 : Word
  hg : Vector Word 7
  /-- HG1 to HG7 of the creation record (R290), and those that the host has written since the gang stop saved, by index (R139). -/
  hg0 : Vector Word 7
  hgSet : List Nat
  doms : Vector (BitVec 64) 2
  follow : Word
  reserves : Vector Word 16
  tmpl : Template
  vsel : Vsel
  stop : Bool
  saved : Bool
  status : PartStatus
  notify : Option Nat
  routbase : Word
  routines : List Byte
  eq : Queue
  lcons : Nat
  refs : Vector Bool 2
  collisions : Vector Nat 2
  /-- The issuer of the last collision on each die (R292). -/
  colliders : Vector Nat 2
  /-- The collisions that the end of the last period saw on each die and no record has reported (R292). -/
  collSeen : Vector Nat 2
  /-- Lines lost in forced revocations (R164). -/
  lost : Nat
  msix : Nat
  /-- Domain and routine loads asked for and not yet done, oldest first: who wrote the register and what (R192, R221). -/
  domload : List (Option (Nat × Nat) × Nat)
  routload : List (Option (Nat × Nat) × Word)
  deriving DecidableEq, Repr

/-- A far extent granted by the fabric manager (R164). -/
structure Extent where
  num : Nat
  part : Nat
  dev : Nat
  releasing : Bool
  revoked : Bool
  deriving DecidableEq, Repr

/-- A page move in progress (R163): the region 0x1 page, its new storage page. -/
structure PageMove where
  page : Nat
  dest : Nat
  deriving DecidableEq, Repr

/-- A hot-page counter of the current period (R162): a region 0x1 page, the stack group and the cluster or dense tile of the
requesting cores, and their requests. -/
structure HotCount where
  page : Nat
  group : Nat
  unit : Nat
  count : Nat
  deriving DecidableEq, Repr

/-- The device's own registers and records (R287, R288, R292 to R297). -/
structure DeviceRegs where
  eq : Queue
  sqProd : Nat
  sqCons : Nat
  ftbase : Word
  ftcount : Nat
  pcap : Nat
  throt : Nat
  cstat : Nat
  creason : Nat
  command : Option (Nat × Nat)
  /-- Messages dropped at a full supervisor queue since the last KIND 12 record (R234, R292). -/
  sqDrops : Nat
  /-- The function through which the host accesses registers: none the physical one, n the virtual one of partition n (R241). -/
  function : Option Nat
  /-- Corrected errors of each die since its last KIND 8 record, and as many of them as the end of the last period saw (R292). -/
  corrected : Vector Nat 2
  corrSeen : Vector Nat 2
  msix : Nat
  number : Option Nat
  /-- The module presents its PCI Express functions (R295). -/
  linked : Bool
  extents : List Extent
  /-- The firmware images of the module, and those of them that verified and run (R295). -/
  images : List (List Byte)
  running : List (List Byte)
  staged : Option (List Byte)
  measured : List (BitVec 256)
  deriving DecidableEq, Repr

/-- What the outside world does that has no row of the opcode table. -/
inductive Outside where
  /-- The host accesses registers through another function (R241). -/
  | function (f : Option Nat)
  /-- The host sets the converted-way count or a home register of a stopped partition (R132, R139). -/
  | ways (p c : Nat)
  | home (p k : Nat) (v : Word)
  /-- Core cn of another device sends a message, or makes an access to a scratchpad of this one at a physical address (R238, R429). -/
  | message (m : Msg)
  | remote (dev cn pa : Nat) (sup : Bool) (op : ReqOp)
  deriving DecidableEq, Repr

/-- A move of the machine: one core issues, an agent's operation takes place, the outside world acts, or the cycle ends. -/
inductive Move where
  | issue (cn slot : Nat)
  | act (i : Instr)
  | outside (a : Outside)
  | endCycle
  deriving DecidableEq, Repr

/-- How the word that last executed ended (R61, R37): completed, waiting, trapped, or stopped at a queue control value. -/
inductive Ending where
  | done
  | waiting
  /-- Waiting, and a request or an arrival has been made in this turn. -/
  | begun
  | trap (cause : Nat) (faddr : Word)
  /-- Completed, and the bundle raises a cause after it ends (R186, R195). -/
  | late (cause : Nat) (faddr : Word)
  | control (port : Nat)
  deriving DecidableEq, Repr

/-- The strand and the word that execute (R59 to R61): core, slot, the word's address, the bundle's first address, the first word
that issues now, and the bundle's length; whether the word is one of several of its bundle, and whether those issue over several turns; the core and its partition as they stood before the bundle; the first
request number that the bundle itself can use; the request numbers of the bundle's later words, for a word that is executed after
them; flags collected, the next PC, and how the last word ended. -/
structure Cursor where
  cn : Nat
  slot : Nat
  pc : Addr
  bundle : Addr
  first : Addr
  len : Nat
  multi : Bool
  spread : Bool
  src : Option Core
  part : Option Part
  since : Nat
  later : Nat × Nat
  flags : Nat
  target : Option Addr
  late : List Late
  ending : Ending
  deriving DecidableEq, Repr

/-- The whole device. -/
structure State where
  powered : Bool
  cycle : Nat
  cores : List (Nat × Core)
  parts : List (Nat × Part)
  mem : Memory
  l2 : List (Nat × Line)
  owner : List (Nat × Nat)
  poison : List Nat
  clusterTlb : List (Nat × List TlbEntry)
  dpit : List (Nat × Nat)
  moves : List PageMove
  hot : List HotCount
  /-- The migration reserve: free storage pages (R162). -/
  reserve : List Nat
  net : List Req
  nextRid : Nat
  doms : List (Nat × Domain)
  buffered : List RowUpd
  /-- The commands that dense tiles have accepted from MCMDs, by issuing core, ticket slot and issue sequence (R375). -/
  mcmds : List (Nat × List Byte)
  /-- Row updates already applied, by row key and step tag (R193). -/
  applied : List (Nat × Nat × Nat)
  /-- The sequence number of the last TSTEP performed for a core (R195). -/
  stepped : List (Nat × Nat)
  dev : DeviceRegs
  agenda : List Move
  cur : Cursor
  issued : List Nat
  visited : Nat
  /-- The free choices made, and the moves chosen among the pending ones (log 6, log 90). -/
  choices : Nat
  chosen : Nat
  deriving DecidableEq, Repr

/-- Why the machine stops (log 3). -/
inductive Fault where
  /-- The module has no power (R297): raised by every step after POWER_LOSS until POWER_ON. Safe. -/
  | unpowered
  deriving DecidableEq, Repr

/-- Why the model gives no meaning. -/
inductive Refusal where
  /-- An arm of the dispatch that has no meaning yet. Safe. -/
  | notModelled (mnemonic : String)
  deriving DecidableEq, Repr

/-- An empty strand slot (log 2). -/
def Strand.empty : Strand :=
  { live := false, pc := 0, sup := false, x := .replicate 32 0, v := .replicate 16 0, p := .replicate 24 0, fctl := 0,
    flags := 0, rkey := 0, sid := 0, draw := 0, susp := none, refusal := none, ordHeld := [], inEntry := false, holds := [], await := none, pend := [],
    arm := none, rep := none, rest := [], late := [],
    mid := none, fetched := [], divFree := 0, notReady := 0, yielded := false, jumped := false }

/-- A tile descriptor at reset (R143). -/
def Tile.empty : Tile := { readers := 0, st := .empty, bytes := 0, base := 0 }

/-- A free ticket slot (R204, R205). -/
def Ticket.empty : Ticket :=
  { gen := 0, st := .pending, live := false, parked := false, det := false, cxl := false, owner := 0, issuer := 0, past := false, prio := 0, og := 0,
    cause := 0, tflags := 0, dtile := none, stile := none, stile2 := none, faddr := 0, elem := 0, fctl := 0, sup := false,
    sel := 0, word := 0, seq := 0, xa := 0, xb := 0, bind := 0, tag := 0, pc := 0, entryWaits := false, refs := false,
    retire := false, seen := false, running := false, answer := none, cmd := [], target := none, order := 0, arrive := 0, fabric := false,
    ending := none, doomed := false, rot := none }

/-- Core registers at power-on (R57; log 2 for those of a partition context). -/
def CoreRegs.reset : CoreRegs :=
  { lost := false, lostCnt := 0, claim := none, qhnd := 0, qcode := 0, cause := 0, faddr := 0, fpc := 0, fslot := 0,
    htab := 0, fhnd := 0, wdog := 0, ctxbase := 0, perm := .replicate 16 0, bdtab := 0, sltab := 0, exposed := false }

/-- A core at power-on, and before its partition's start values (R290). No rule gives the contents of the neighbour queues then: they
start empty (DESIGN CHOICE, log 78). -/
def Core.reset : Core :=
  { strands := .replicate 12 Strand.empty, tiles := .replicate 32 Tile.empty, tickets := .replicate 64 Ticket.empty,
    tslots := .replicate 8 none, regs := CoreRegs.reset, inbox := [], heldIn := [],
    queues := .replicate 4 [], near := [], microTlb := [], lastP := 0, handlerLast := false, runList := .replicate 4 [],
    run := .idle, hist := .replicate 64 0, seq := 0, tstepSeq := 0, phase := none, slotMap := [],
    wrr := .replicate 4 0, refused := 0, mrotLost := 0 }

/-- The values read where no partition holds a core (log 2). -/
def Template.zero : Template :=
  { fctl := 0, rkey := 0, htab := 0, fhnd := 0, wdog := 0, bdtab := 0, sltab := 0, perm := .replicate 16 0,
    ctxbase0 := 0, entry := 0 }

/-- The partition that reads where there is none (log 2). -/
def Part.none : Part :=
  { key := 0, clusters := [], dense := [], conv := 0, migrate := false, ringBase := 0, ringLog := 0, ptroot := 0,
    fpool := 0, alist := 0, alist0 := 0, hg := .replicate 7 0, hg0 := .replicate 7 0, hgSet := [], doms := .replicate 2 0, follow := 0, reserves := .replicate 16 0,
    tmpl := Template.zero, vsel := { sel := 0, follow := false, ver := 0 }, stop := false, saved := false,
    status := .running, notify := Option.none, routbase := 0, routines := [], eq := { prod := 0, cons := 0, drops := 0 },
    lcons := 0, refs := .replicate 2 false, collisions := .replicate 2 0, colliders := .replicate 2 0, collSeen := .replicate 2 0, lost := 0, msix := 0, domload := [],
    routload := [] }

/-- Device registers at power-on (R287). -/
def DeviceRegs.reset : DeviceRegs :=
  { eq := { prod := 0, cons := 0, drops := 0 }, sqProd := 0, sqCons := 0, ftbase := 0, ftcount := 0, pcap := 2100,
    throt := 0, cstat := 0, creason := 0, command := none, sqDrops := 0, function := none, corrected := .replicate 2 0, corrSeen := .replicate 2 0, msix := 0, number := none, linked := true, extents := [], images := [], running := [],
    staged := none, measured := [] }

/-- The cursor before anything has issued (the model's own field, log 5). -/
def Cursor.start : Cursor :=
  { cn := 0, slot := 0, pc := 0, bundle := 0, first := 0, len := 1, multi := false, spread := false, src := none, part := none, since := 0, later := (0, 0), flags := 0, target := none,
    late := [], ending := .done }

/-- The device after module power-on (R6, R288): no partition, no live strand. -/
def State.reset : State :=
  { powered := true, cycle := 0, cores := [], parts := [], mem := [], l2 := [], owner := [], poison := [],
    clusterTlb := [], dpit := [], moves := [], hot := [], reserve := [], net := [], nextRid := 0, doms := [], buffered := [], mcmds := [],
    applied := [], stepped := [], dev := DeviceRegs.reset, agenda := [], cur := Cursor.start, issued := [], visited := 0, choices := 0, chosen := 0 }

end Sys2Proof.Machine
end

