-- ==== Sys2Proof/Machine/Mem.lean ====
section
/-! DEFINITION. Keyed collections with rising keys, and the bytes of every storage of the device (R18, R20, R25, R129, R132,
R136, R137, R164, R242). -/
namespace Sys2Proof.Machine

/-- The entry at a key. -/
def getKey {β : Type} : List (Nat × β) → Nat → Option β
  | [], _ => none
  | (k, v) :: r, a => if k = a then some v else getKey r a

/-- Writes the entry at a key, keeping the keys in rising order. -/
def putKey {β : Type} : List (Nat × β) → Nat → β → List (Nat × β)
  | [], a, b => [(a, b)]
  | (k, v) :: r, a, b =>
    if a < k then (a, b) :: (k, v) :: r
    else if a = k then (a, b) :: r
    else (k, v) :: putKey r a b

/-- Removes the entry at a key. -/
def delKey {β : Type} : List (Nat × β) → Nat → List (Nat × β)
  | [], _ => []
  | (k, v) :: r, a => if k = a then r else (k, v) :: delKey r a

/-- Keys strictly rising. -/
def rising {β : Type} : List (Nat × β) → Bool
  | (k, _) :: (l, w) :: r => k < l && rising ((l, w) :: r)
  | _ => true

/-- The canonical form of memory: keys strictly rising, no zero byte listed (log 1). -/
def Memory.wf (m : Memory) : Bool := rising m && m.all fun c => c.2 != 0

/-- The byte at a key; an unlisted byte reads zero (log 1). -/
def Memory.read (m : Memory) (a : Nat) : Byte := (getKey m a).getD 0

/-- Writes one byte, keeping the canonical form. -/
def Memory.write (m : Memory) (a : Nat) (b : Byte) : Memory := if b = 0 then delKey m a else putKey m a b

/-- n bytes from a key. -/
def Memory.readN (m : Memory) (a n : Nat) : List Byte := (List.range n).map fun i => m.read (a + i)

/-- Writes bytes from a key on. -/
def Memory.writeN (m : Memory) (a : Nat) : List Byte → Memory
  | [] => m
  | b :: bs => Memory.writeN (m.write a b) (a + 1) bs

/-- The listed cells of bytes from a key on. -/
def runCells (a : Nat) : List Byte → Memory
  | [] => []
  | b :: bs => if b = 0 then runCells (a + 1) bs else (a, b) :: runCells (a + 1) bs

/-- Writes a long run of bytes from a key on, in one pass. -/
def Memory.writeRun (m : Memory) (a : Nat) (bs : List Byte) : Memory :=
  (m.filter fun c => c.1 < a) ++ (runCells a bs ++ m.filter fun c => a + bs.length ≤ c.1)

/-- n bytes from a key on, out of cells that all lie at or above it. -/
def runBytes : (n a : Nat) → Memory → List Byte
  | 0, _, _ => []
  | n + 1, a, [] => 0 :: runBytes n (a + 1) []
  | n + 1, a, (k, b) :: r => if k = a then b :: runBytes n (a + 1) r else 0 :: runBytes n (a + 1) ((k, b) :: r)

/-- A long run of bytes from a key, in one pass. -/
def Memory.readRun (m : Memory) (a n : Nat) : List Byte := runBytes n a (m.filter fun c => a ≤ c.1)

/-- Zeroes the n bytes from a key on. -/
def Memory.clear (m : Memory) (a n : Nat) : Memory := m.filter fun c => c.1 < a || a + n ≤ c.1

/-- HBM storage by pseudo-channel and local address (R136, R137). -/
def hbmKey (pc la : Nat) : Nat := pc * 2 ^ 30 + la
/-- A byte of a far extent (R128). -/
def farKey (ext byte : Nat) : Nat := 2 ^ 60 + ext * 2 ^ 30 + byte
/-- A scratchpad byte of a core of this device (R129). -/
def scratchKey (cn off : Nat) : Nat := 2 * 2 ^ 60 + cn * 2 ^ 16 + off
/-- A chip scratchpad byte (R132). -/
def chipKey (cn off : Nat) : Nat := 3 * 2 ^ 60 + cn * 2 ^ 15 + off
/-- An operand store byte of a dense tile (R242). -/
def operandKey (cn off : Nat) : Nat := 4 * 2 ^ 60 + cn * 2 ^ 21 + off
/-- An accumulator word of a dense tile, by its linear index (R242). -/
def accKey (cn idx : Nat) : Nat := 5 * 2 ^ 60 + cn * 2 ^ 22 + 4 * idx
/-- A scratchpad byte of a core of another device (R129, R130, R238). -/
def remoteKey (dev cn off : Nat) : Nat := 6 * 2 ^ 60 + dev * 2 ^ 36 + cn * 2 ^ 20 + off
/-- A byte of the creation record (R289). -/
def crecKey (off : Nat) : Nat := 7 * 2 ^ 60 + off

/-- The core with a number. -/
def State.core (s : State) (cn : Nat) : Core := (getKey s.cores cn).getD Core.reset

/-- Replaces a core. -/
def State.setCore (s : State) (cn : Nat) (c : Core) : State := { s with cores := putKey s.cores cn c }

/-- Changes a core. -/
def State.modCore (s : State) (cn : Nat) (f : Core → Core) : State := s.setCore cn (f (s.core cn))

/-- The strand in a slot. -/
def Core.strand (c : Core) (slot : Nat) : Strand := c.strands[slot]?.getD Strand.empty

/-- Replaces the strand in a slot. -/
def Core.setStrand (c : Core) (slot : Nat) (t : Strand) : Core :=
  { c with strands := c.strands.setIfInBounds slot t }

/-- A strand of the device. -/
def State.strand (s : State) (cn slot : Nat) : Strand := (s.core cn).strand slot

/-- Changes a strand of the device. -/
def State.modStrand (s : State) (cn slot : Nat) (f : Strand → Strand) : State :=
  s.setCore cn ((s.core cn).setStrand slot (f (s.strand cn slot)))

/-- A tile descriptor. -/
def Core.tile (c : Core) (t : Nat) : Tile := c.tiles[t]?.getD Tile.empty

/-- Replaces a tile descriptor. -/
def Core.setTile (c : Core) (t : Nat) (x : Tile) : Core := { c with tiles := c.tiles.setIfInBounds t x }

/-- A ticket slot. -/
def Core.ticket (c : Core) (t : Nat) : Ticket := c.tickets[t]?.getD Ticket.empty

/-- Replaces a ticket slot. -/
def Core.setTicket (c : Core) (t : Nat) (x : Ticket) : Core := { c with tickets := c.tickets.setIfInBounds t x }

/-- The queued records of a level (R40). -/
def Core.level (c : Core) (l : Nat) : List (Nat × Nat) := c.runList[l]?.getD []

/-- A table slot. -/
def Core.binding (c : Core) (n : Nat) : Option Binding := c.tslots[n]?.getD none

/-- The partition with a number, if it exists. -/
def State.part? (s : State) (p : Nat) : Option Part := getKey s.parts p

/-- The partition with a number; `Part.none` where there is none (log 2). -/
def State.part (s : State) (p : Nat) : Part := (s.part? p).getD Part.none

/-- Replaces a partition. -/
def State.setPart (s : State) (p : Nat) (x : Part) : State := { s with parts := putKey s.parts p x }

/-- Changes a partition that exists. -/
def State.modPart (s : State) (p : Nat) (f : Part → Part) : State :=
  match s.part? p with
  | none => s
  | some x => s.setPart p (f x)

/-- One free choice below a bound, and the state with the counter advanced (log 6). -/
def State.choose (s : State) (bound : Nat) : Nat × State :=
  (Config.choice s.choices % bound, { s with choices := s.choices + 1 })

/-- The strand that executes. -/
def State.me (s : State) : Strand := s.strand s.cur.cn s.cur.slot

/-- The core that executes. -/
def State.myCore (s : State) : Core := s.core s.cur.cn

/-- The core as the bundle's sources read it (R61): as it stood before the bundle. -/
def State.srcCore (s : State) : Core := s.cur.src.getD s.myCore

/-- The strand as the bundle's sources read it (R61). -/
def State.src (s : State) : Strand := s.srcCore.strand s.cur.slot

/-- Changes the strand that executes. -/
def State.modMe (s : State) (f : Strand → Strand) : State := s.modStrand s.cur.cn s.cur.slot f

/-- Changes the core that executes. -/
def State.modMyCore (s : State) (f : Core → Core) : State := s.modCore s.cur.cn f

end Sys2Proof.Machine
end

