-- ==== Sys2Proof/Machine/Topo.lean ====
section
/-! DEFINITION. Core numbers, clusters, stack groups and pseudo-channels (R12 to R22), the units of a partition (R26, R28),
and homing (R135 to R139, R161). -/
namespace Sys2Proof.Machine

/-- A number of a dense sequencer (R13). -/
def isDense (cn : Nat) : Bool := bit cn 15

/-- A number that names a core (R12 to R14). -/
def isCore (cn : Nat) : Bool := cn < 0x10000 && (!isDense cn || fld cn 4 10 == 0)

/-- The die of a core. -/
def dieOf (cn : Nat) : Nat := fld cn 14 1

/-- Row and column of a bobbin core (R12). -/
def rowOf (cn : Nat) : Nat := fld cn 7 7
def colOf (cn : Nat) : Nat := fld cn 0 7

/-- The number of a bobbin core (R12). -/
def coreNum (die y x : Nat) : Nat := die * 2 ^ 14 + y * 2 ^ 7 + x

/-- The number of a dense sequencer (R13). -/
def denseNum (die row col : Nat) : Nat := 0x8000 + die * 2 ^ 14 + row * 4 + col

/-- The cluster index of a bobbin core within its die (R15). -/
def clusterIx (cn : Nat) : Nat := rowOf cn / 8 * 32 + colOf cn / 4

/-- The device cluster number of a bobbin core (R15). -/
def clusterOf (cn : Nat) : Nat := dieOf cn * 512 + clusterIx cn

/-- The core index of a bobbin core within its cluster (R15). -/
def coreIx (cn : Nat) : Nat := rowOf cn % 8 * 4 + colOf cn % 4

/-- The core with an index in a device cluster (R15). -/
def coreInCluster (cluster ix : Nat) : Nat :=
  coreNum (cluster / 512) (cluster % 512 / 32 * 8 + ix / 4) (cluster % 32 * 4 + ix % 4)

/-- The stack number of a core; a dense tile's walkers are those of group 2·row + (col >> 1) (R16, R152). -/
def stackOf (cn : Nat) : Nat :=
  if isDense cn then dieOf cn * 8 + fld cn 2 2 * 2 + fld cn 1 1
  else dieOf cn * 8 + rowOf cn / 64 * 4 + colOf cn / 32

/-- The cluster that owns a pseudo-channel (R17). -/
def clusterOfPc (pc : Nat) : Nat :=
  let group := fld pc 6 3
  fld pc 9 1 * 512 + (group / 4 * 8 + fld pc 3 3) * 32 + (group % 4 * 8 + fld pc 0 3)

/-- The stack of a pseudo-channel: its die and group (R16, R17). -/
def stackOfPc (pc : Nat) : Nat := fld pc 6 4

/-- The dense tile index 16·die + 4·row + col (R289). -/
def denseIx (cn : Nat) : Nat := dieOf cn * 16 + fld cn 0 4

/-- The dense sequencer with an index. -/
def denseOfIx (i : Nat) : Nat := 0x8000 + i / 16 * 2 ^ 14 + i % 16

/-- The neighbour of a bobbin core through port 0 N, 1 E, 2 S, 3 W, if it has one (R19). -/
def neighbour (cn port : Nat) : Option Nat :=
  let y := rowOf cn
  let x := colOf cn
  if isDense cn then none
  else match port with
    | 0 => if y = 0 then none else some (coreNum (dieOf cn) (y - 1) x)
    | 1 => if x = 127 then none else some (coreNum (dieOf cn) y (x + 1))
    | 2 => if y = 127 then none else some (coreNum (dieOf cn) (y + 1) x)
    | _ => if x = 0 then none else some (coreNum (dieOf cn) y (x - 1))

/-- Whether a partition holds a core (R26). -/
def Part.holds (p : Part) (cn : Nat) : Bool :=
  isCore cn && if isDense cn then p.dense.contains (denseIx cn) else p.clusters.contains (clusterOf cn)

/-- The partition that holds a core, if any (R26). -/
def State.partOf? (s : State) (cn : Nat) : Option Nat := (s.parts.find? fun p => p.2.holds cn).map (·.1)

/-- The number of the partition that holds a core; 64 for none. -/
def State.partNo (s : State) (cn : Nat) : Nat := (s.partOf? cn).getD 64

/-- The partition of a core; `Part.none` where there is none. -/
def State.partFor (s : State) (cn : Nat) : Part := s.part (s.partNo cn)

/-- The executing core's partition as the bundle's sources read it (R61). -/
def State.srcPart (s : State) : Part := s.cur.part.getD (s.partFor s.cur.cn)

/-- The bobbin cores of a cluster in ascending core number. -/
def clusterCores (c : Nat) : List Nat := (List.range 32).map (coreInCluster c)

/-- Insertion into a rising list without repeats. -/
def insertNat (a : Nat) : List Nat → List Nat
  | [] => [a]
  | b :: r => if a < b then a :: b :: r else if a = b then b :: r else b :: insertNat a r

/-- A list in rising order without repeats. -/
def sortNats (l : List Nat) : List Nat := l.foldl (fun acc a => insertNat a acc) []

/-- The bobbin cores of a partition in ascending core number (R290). -/
def Part.bobbins (p : Part) : List Nat := sortNats (p.clusters.flatMap clusterCores)

/-- The dense sequencers of a partition in ascending core number. -/
def Part.sequencers (p : Part) : List Nat := sortNats (p.dense.map denseOfIx)

/-- Every core of a partition in the rank order of R290. -/
def Part.cores (p : Part) : List Nat := p.bobbins ++ p.sequencers

/-- The lead core of a partition: its bobbin core with the lowest number (R28). -/
def Part.lead (p : Part) : Nat :=
  (p.clusters.map fun c => coreInCluster c 0).foldl (fun a b => if b < a then b else a) 0xFFFF

/-- The number of a partition's cluster of a core, counted upward in ascending device cluster number (R217). -/
def Part.clusterRank (p : Part) (cn : Nat) : Nat := (p.clusters.filter (· < clusterOf cn)).length

/-- XOR of the fields of a number that start at the given bits. -/
def xorFields (n len : Nat) (starts : List Nat) : Nat := starts.foldl (fun acc lo => acc ^^^ fld n lo len) 0

/-- The pseudo-channel and local address of a striped address (R136). -/
def stripedPc (a : Nat) : Nat := xorFields a 10 [8, 18, 28]
def stripedLa (a : Nat) : Nat := fld a 18 22 * 2 ^ 8 + fld a 0 8

/-- The storage address of a region 0x1 address through the indirection table (R161). -/
def State.direct (s : State) (a : Nat) : Nat :=
  let page := fld a 16 24
  (getKey s.dpit page).getD page * 2 ^ 16 + fld a 0 16

/-- The pseudo-channel of a region 0x0, 0x1 or 0x2 address (R135, R161). -/
def State.pcOf (s : State) (pa : Nat) : Nat :=
  if fld pa 52 4 = 1 then fld (s.direct (fld pa 0 40)) 30 10 else stripedPc (fld pa 0 40)

/-- The storage key of a byte of regions 0x0 to 0x2 (R136, R137, R161, R164). -/
def State.storeKey (s : State) (pa : Nat) : Nat :=
  match fld pa 52 4 with
  | 0 => hbmKey (stripedPc (fld pa 0 40)) (stripedLa (fld pa 0 40))
  | 1 => hbmKey (fld (s.direct (fld pa 0 40)) 30 10) (fld (s.direct (fld pa 0 40)) 0 30)
  | _ => farKey (fld pa 30 22) (fld pa 0 30)

/-- H5 of a line (R135). -/
def h5 (pa : Nat) : Nat := xorFields pa 5 [7, 12, 17, 22, 27, 32, 37, 42, 47, 52]
/-- H10 of a line (R135). -/
def h10 (pa : Nat) : Nat := xorFields (pa % 2 ^ 56) 10 [7, 17, 27, 37, 47]

/-- The clusters that a home group register names, in ascending cluster index (R139). -/
def hgClusters (hg : Nat) : List Nat :=
  ((List.range 512).filter fun i => bit hg (32 + i / 32) && bit hg (i % 32)).map fun i => fld hg 61 1 * 512 + i

/-- The home slice of a line by the home field of its page, or none where the home register is unset (R135, R139). -/
def State.homeOf (s : State) (p : Part) (pa home : Nat) : Option Nat :=
  if home = 0 then some (coreInCluster (clusterOfPc (s.pcOf pa)) (h5 pa))
  else
    let hg := (p.hg[home - 1]?.getD 0).toNat
    match fld hg 62 2 with
    | 1 => some (fld hg 0 16)
    | 2 =>
      let cs := hgClusters hg
      some (coreInCluster (cs.getD (h10 pa % cs.length) 0) (h5 pa))
    | _ => none

/-- The members of a loaded domain on its own die (R220). -/
def Domain.members (d : Domain) (die : Nat) : List Nat :=
  sortNats (((List.range 512).filter fun c => d.clusters.getLsbD c).flatMap (fun c =>
    ((List.range 32).filter fun j => d.cores.getLsbD j).map fun j => coreInCluster (die * 512 + c) j) ++
    ((List.range 16).filter fun t => d.dense.getLsbD t).map fun t => denseOfIx (die * 16 + t))

/-- Membership of one core in a domain of a die (R220). -/
def Domain.has (d : Domain) (die cn : Nat) : Bool :=
  isCore cn && dieOf cn == die &&
    if isDense cn then d.dense.getLsbD (denseIx cn % 16)
    else d.clusters.getLsbD (clusterIx cn) && d.cores.getLsbD (coreIx cn)

/-- The domain with a number on a die, if it is loaded. -/
def State.dom? (s : State) (die d : Nat) : Option Domain := getKey s.doms (die * 64 + d)

end Sys2Proof.Machine
end

