-- ==== Sys2Proof/Machine/Ops.lean ====
section
/-! DEFINITION. The shared operations over registers, requests, queues and strands; taking an exception, entering and leaving
the handler (R273, R274), the fatal stop (R277), and how a word ends (R61, R108). -/
namespace Sys2Proof.Machine

/-- A scalar register; s0 reads zero (R55). -/
def Strand.getX (t : Strand) (r : Nat) : Word := if r = 0 then 0 else t.x[r]?.getD 0

/-- Writes a scalar register; a write to s0 is discarded (R55). -/
def Strand.setX (t : Strand) (r : Nat) (v : Word) : Strand := if r = 0 then t else { t with x := t.x.setIfInBounds r v }

/-- A vector register. -/
def Strand.getV (t : Strand) (r : Nat) : VWord := t.v[r]?.getD 0

/-- Writes a vector register. -/
def Strand.setV (t : Strand) (r : Nat) (v : VWord) : Strand := { t with v := t.v.setIfInBounds r v }

/-- A predicate register; field value 31 reads all ones (R54). -/
def Strand.getP (t : Strand) (r : Nat) : PWord := if r = 31 then 0xFFFF else t.p[r]?.getD 0

/-- Writes a predicate register. -/
def Strand.setP (t : Strand) (r : Nat) (v : PWord) : Strand := { t with p := t.p.setIfInBounds r v }

/-- Writes a register of any class. -/
def Strand.setReg (t : Strand) : Reg → BitVec 128 → Strand
  | .x r, v => t.setX r (v.setWidth 64)
  | .v r, v => t.setV r v
  | .p r, v => t.setP r (v.setWidth 16)

/-- A scalar source of the executing word (R61). -/
def State.x (s : State) (r : BitVec 5) : Word := s.src.getX r.toNat

/-- A predicate source of the executing word (R61). -/
def State.p (s : State) (r : Nat) : PWord := s.src.getP r

/-- The turn of the executing word in a bundle that issues over several turns (R39); 0 in any other. -/
def Cursor.turn (c : Cursor) : Nat := if c.spread then (c.pc - c.first).toNat / 4 else 0

/-- Writes a register of the executing strand with the latency of its class: in exposed mode a write that is not made in the
first turn is counted, by its latency less one from the word's own turn (R257). -/
def State.setReg (s : State) (latency : Nat) (r : Reg) (v : BitVec 128) : State :=
  if s.myCore.regs.exposed && 1 < latency + s.cur.turn then
    if r = .x 0 then s
    else s.modMe fun t => { t with
      pend := t.pend ++ [{ reg := r, rid := s.cur.since, val := some v, turns := some (latency - 1 + s.cur.turn) }] }
  else s.modMe fun t => t.setReg r v

/-- Writes a scalar register with a latency class. -/
def State.setX (s : State) (latency : Nat) (r : BitVec 5) (v : Word) : State :=
  s.setReg latency (.x r.toNat) (v.setWidth 128)

/-- Writes a predicate register with a latency class. -/
def State.setP (s : State) (latency : Nat) (r : Nat) (v : PWord) : State := s.setReg latency (.p r) (v.setWidth 128)

/-- Appends requests to the traffic in flight, each with the next request number. -/
def State.send (s : State) (rs : List Req) : State :=
  rs.foldl (fun t r => { t with net := t.net ++ [{ r with rid := t.nextRid }], nextRid := t.nextRid + 1 }) s

/-- A request of the executing strand. -/
def State.request (s : State) (home : Home) (op : ReqOp) (va : Word) : Req :=
  { rid := 0, src := s.cur.cn, slot := s.cur.slot, part := s.partNo s.cur.cn, sup := s.me.sup, va := va,
    fpc := s.cur.bundle, home := home, op := op, og := none, depart := none, due := none }

/-- Removes the request at an index. -/
def State.dropReq (s : State) (i : Nat) : State := { s with net := s.net.eraseIdx i }

/-- FADDR of a cause 0x07 for which no rule names an address (R271): a free value. -/
def State.openAddr (s : State) : Word := Config.freeReg (s.cycle * 2 ^ 20 + s.cur.cn * 16 + s.cur.slot)

/-! ### Error queues (R292 to R294) -/

/-- An error record of 32 bytes (R292). -/
def errRecord (kind cause core slotWord w8 w10 w18 : Nat) : List Byte :=
  leBytes 1 kind ++ leBytes 1 cause ++ leBytes 2 core ++ leBytes 4 slotWord ++ leBytes 8 w8 ++ leBytes 8 w10 ++
    leBytes 8 w18

/-- Removes the L2 lines that lie in n bytes from a physical address, at every home, without write-back. -/
def State.dropLines (s : State) (pa n : Nat) : State :=
  { s with l2 := s.l2.filter fun l => (l.1 % 2 ^ 49 * 128 + 128 ≤ pa) || (pa + n ≤ l.1 % 2 ^ 49 * 128) }

/-- A device write to HBM at a physical address: the bytes reach storage and every cached line that holds them. -/
def State.hostWrite (s : State) (pa : Nat) (bs : List Byte) : State :=
  let mem := (List.range bs.length).foldl (fun m i => m.write (s.storeKey (pa + i)) (bs.getD i 0)) s.mem
  let touch (key : Nat) (l : Line) : Line :=
    { l with data := (List.range 128).map fun j =>
        let a := key % 2 ^ 49 * 128 + j
        if pa ≤ a && a < pa + bs.length then bs.getD (a - pa) 0 else l.data.getD j 0 }
  { s with mem := mem, l2 := s.l2.map fun l => (l.1, touch l.1 l.2) }

/-- Ring step of one record: written before the producer index advances. -/
def putRecord (s : State) (base : Word) (q : Queue) (r : List Byte) : State × Queue :=
  (s.hostWrite (base.toNat % 2 ^ 56 + 32 * (q.prod % 256)) r, { q with prod := q.prod + 1 })

/-- Whether a queue takes n records now, after the KIND 14 record that comes first (R292). -/
def Queue.takes (q : Queue) (n : Nat) : Bool :=
  let used := q.prod - q.cons
  used + n + b2n (q.drops != 0 && used < 256) ≤ 256

/-- Whether the error queue of a partition takes n records now. -/
def State.takesRecord (s : State) (p n : Nat) : Bool := (s.part? p).isSome && (s.part p).eq.takes n

/-- Writes records to a queue as one (R292): a KIND 14 record of the drop count comes first, and records that find too
few free entries are dropped and counted once. -/
def pushRecords (s : State) (base : Word) (q : Queue) (rs : List (List Byte)) : State × Queue :=
  let (s1, q1) :=
    if q.drops ≠ 0 && q.prod - q.cons < 256 then
      let (s', q') := putRecord s base q (errRecord 14 0 0 0 0 0 q.drops)
      (s', { q' with drops := 0 })
    else (s, q)
  if !rs.isEmpty && 256 < q1.prod - q1.cons + rs.length then (s1, { q1 with drops := q1.drops + 1 })
  else rs.foldl (fun (a : State × Queue) r => putRecord a.1 base a.2 r) (s1, q1)

/-- Writes records to a partition's error queue; an advance of EQPROD raises the partition's vector (R294). -/
def State.report (s : State) (p : Nat) (rs : List (List Byte)) : State :=
  match s.part? p with
  | none => s
  | some x =>
    let (s', q) := pushRecords s (Config.partEqBase p) x.eq rs
    s'.modPart p fun y => { y with eq := q, msix := y.msix + b2n (q.prod != x.eq.prod) }

/-- Writes records to the device error queue. -/
def State.reportDevice (s : State) (rs : List (List Byte)) : State :=
  let (s', q) := pushRecords s Config.eqBase s.dev.eq rs
  { s' with dev := { s'.dev with eq := q, msix := s'.dev.msix + b2n (q.prod != s.dev.eq.prod) } }

/-- The bytes of a message's payload words, zero beyond the count. -/
def Msg.word (m : Msg) (i : Nat) : Nat := (m.payload.getD i 0).toNat

/-- The target core of a message (R230). -/
def Msg.cn (m : Msg) : Nat := fld m.target.toNat 0 16

/-- Diverts a message to the device supervisor queue (R293); a full queue drops and reports it (R234). -/
def State.divert (s : State) (reason : Nat) (m : Msg) : State :=
  let src := if m.srcDev = 0xFFFF then s.partOf? m.srcCn else none
  if 256 ≤ s.dev.sqProd - s.dev.sqCons then
    let n := s.dev.sqDrops + 1
    let t := s.reportDevice [errRecord 12 0 m.cn 0 m.target.toNat reason n]
    { t with dev := { t.dev with sqDrops := if s.dev.eq.takes 1 then 0 else n } }
  else
    let r := leBytes 1 reason ++ leBytes 1 m.payload.length ++ leBytes 2 m.cn ++
      leBytes 2 ((s.partOf? m.cn).getD 0xFFFF) ++ leBytes 2 (src.getD 0xFFFF) ++ leBytes 8 m.target.toNat ++
      leBytes 4 (m.srcDev * 2 ^ 16 + m.srcCn) ++ leBytes 4 0 ++ leBytes 8 (m.word 0) ++ leBytes 8 (m.word 1) ++
      leBytes 8 (m.word 2) ++ leBytes 8 (m.word 3) ++ leBytes 8 m.arrived
    let s' := s.hostWrite (Config.sqBase.toNat % 2 ^ 56 + 64 * (s.dev.sqProd % 256)) r
    { s' with dev := { s'.dev with sqProd := s'.dev.sqProd + 1, msix := s'.dev.msix + 1 } }

/-! ### Fatal stop and exceptions -/

/-- A ticket of a fatally stopped core: it starts no further element and its running element is abandoned (R277). -/
def Ticket.abandon (t : Ticket) : Ticket := { t with running := false, answer := none, refs := false, ending := none }

/-- A strand of a fatally stopped core: what its bundle has not yet sent never leaves (R277). -/
def Strand.abandon (t : Strand) : Strand := { t with rest := [], late := [], mid := none, refusal := none, ordHeld := [] }

/-- A core of a partition that stops on a fatal fault (R277): messages are discarded, elements abandoned, bundles end where
they stand, and bindings lose their references (R200). -/
def Core.fatal (c : Core) : Core :=
  { c with inbox := [], heldIn := [], strands := c.strands.map Strand.abandon, tickets := c.tickets.map Ticket.abandon
           tslots := .replicate 8 none }

/-- Whether a request is a message that waits at its sending port or its target's (R234). -/
def Req.isSend (r : Req) : Bool := match r.op with | .send _ => true | _ => false

/-- The slot under which the requests of ticket n of a core travel (R165, R178); below it are the strand slots, and 12 for an engine's
requests about a table. -/
def ticketSlot (n : Nat) : Nat := 16 + n

/-- Whether a request belongs to a ticket's element, which a fatal stop abandons (R277): a row update, or an engine's unit. -/
def Req.ofElement (r : Req) : Bool :=
  match r.op with
  | .row _ => true
  | .loss .. => false
  | _ => 16 ≤ r.slot

/-- The request that ends a partition's reference to a half, on its way to the descriptor's home (R199). -/
def refRequest (x : Part) (p half : Nat) : Req :=
  { rid := 0, src := x.lead, slot := 12, part := p, sup := true, va := x.follow, fpc := 0, home := .owner 0x10000
    op := .setRef half, og := none, depart := none, due := none }

/-- Stops a partition without a record (R277, R288): the messages held at its ports, the requests of abandoned elements and
the buffered contributions are discarded (R196), and a half that VSEL
does not select loses the partition's reference (R200). -/
def State.halt (s : State) (p : Nat) : State :=
  match s.part? p with
  | none => s
  | some x =>
    let s1 := x.cores.foldl (fun t cn => t.modCore cn Core.fatal) s
    let s2 := { s1 with
      buffered := s1.buffered.filter fun u => u.part ≠ p
      net := s1.net.filter fun r => r.part ≠ p || !(r.isSend || r.ofElement) }
    let s3 := s2.modPart p fun y => { y with status := .fatal, stop := false, saved := false }
    let lost := (List.range 2).filter fun h => x.refs[h]?.getD false && (x.vsel.sel ≠ h || !x.vsel.follow)
    s3.send (lost.map fun h => refRequest x p h)

/-- The fatal stop with its KIND 1 record (R277, R292). -/
def State.fatalStop (s : State) (p cause cn slot : Nat) (pc : Addr) (addr : Nat) : State :=
  if (s.part p).status = .fatal then s
  else (s.halt p).report p [errRecord 1 cause cn slot pc.toNat addr 0]

/-- The fatal stop for a cause that no strand raised: slot and PC of its record are free values (log 15);
the address of a cause 0x13 is the one given, or stands above the code. -/
def State.fatalAlone (s : State) (p cause cn addr : Nat) : State :=
  let k := 2 ^ 90 + s.cycle * 2 ^ 20 + 2 * cn
  s.fatalStop p (cause % 2 ^ 8) cn (fld (Config.freeReg k).toNat 0 4) ((Config.freeReg (k + 1)).setWidth 56)
    (if cause % 2 ^ 8 = 0x13 && 2 ^ 8 ≤ cause then cause / 2 ^ 8 else addr)

/-! ### Tiles of a ticket (R145) -/

/-- A source begins. -/
def Tile.take (x : Tile) (drain : Bool) : Tile :=
  if drain then { x with st := .draining } else { x with readers := x.readers + 1 }

/-- A source ends. -/
def Tile.giveBack (x : Tile) : Tile :=
  if x.st = .draining then { x with st := .ready } else { x with readers := x.readers - 1 }

/-- A destination ends: READY for DONE, else EMPTY. -/
def Tile.filled (x : Tile) (ok : Bool) : Tile := { x with st := if ok then .ready else .empty }

/-- Changes a tile of a core. -/
def Core.modTile (c : Core) (t : Nat) (f : Tile → Tile) : Core := c.setTile t (f (c.tile t))

/-- Takes a destination and sources. -/
def Core.takeFor (c : Core) (dst : Option Nat) (srcs : List Nat) (drain : Bool) : Core :=
  let c1 := match dst with
    | some t => c.modTile t fun x => { x with st := .filling }
    | none => c
  srcs.foldl (fun d t => d.modTile t fun x => x.take drain) c1

/-- Gives a destination and sources back. -/
def Core.giveBack (c : Core) (dst : Option Nat) (srcs : List Nat) (ok : Bool) : Core :=
  let c1 := match dst with
    | some t => c.modTile t fun x => x.filled ok
    | none => c
  srcs.foldl (fun d t => d.modTile t Tile.giveBack) c1

/-- The tiles that a waiting word has taken (R355). -/
def Hold.taken : Hold → Option (Option Nat × List Nat)
  | .tiles d l | .tilesAsked d l _ | .tilesGranted d l _ _ => some (d, l)
  | _ => none

/-- The waiting words of a strand give their tiles back, since they will be executed again from the start. -/
def Core.giveTiles (c : Core) (slot : Nat) : Core :=
  (c.strand slot).holds.foldl (fun d h => match h.2.taken with
    | some (t, l) => d.giveBack t l false
    | none => d) c

/-- A strand that leaves a bundle of which a word waits, to execute it again (R61): the results of its first words are not
kept. -/
def Strand.dropMid (t : Strand) : Strand :=
  match t.mid with
  | none => t
  | some m => { t with mid := none, rest := [], pend := t.pend.filter fun p => p.rid < m.since }

/-- Waits in the middle of an operation that gang stop and fault entry let end (R52, R267, R415, R424, R425); a barrier instance
that has completed is one, since its instruction ends at B (R223, R326). -/
def Hold.mid : Hold → Bool
  | .reply _ | .replied _ _ | .sample _ | .tlbi _ | .released _ _ => true
  | _ => false

/-- Whether a word that waits has issued: it takes no further turn when its wait ends (R37, R39, R326). -/
def Hold.begun : Hold → Bool
  | .reply _ | .replied _ _ | .barrier _ _ _ | .released _ _ | .sample _ | .tlbi _ | .mode | .idle | .woken | .array _ _ _ => true
  | _ => false

/-- Whether a ticket's word has not yet had its turn, so that its engine does not see it (R39, R61). -/
def Core.unsent (c : Core) (t : Ticket) : Bool :=
  !t.past && (c.strand t.issuer).rest.any fun r => r.first ≤ t.order && t.order < r.last

/-- TAKING AN EXCEPTION (R272, R273): the strand is suspended with its cause, address and bundle, and resumes, when RTE
comes, at `resume` (R271); a replayed bundle stands where it was reached from, so a branch target is judged again (R60). The fatal cause 0x13 of
a page walk carries its storage address (R285). A fault of the handler strand stops the partition (R51). -/
def State.takeException (s : State) (cn slot cause : Nat) (faddr : Word) (fpc resume : Addr) : State :=
  if cause % 2 ^ 8 = 0x13 then s.fatalStop (s.partNo cn) 0x13 cn slot fpc (cause / 2 ^ 8)
  else if slot = 11 then s.fatalStop (s.partNo cn) cause cn 11 fpc 0
  else (s.modCore cn fun c => c.giveTiles slot).modStrand cn slot fun t =>
    { t.dropMid with susp := some { cause := cause, faddr := faddr, fpc := fpc }, pc := resume, holds := []
                     jumped := t.jumped && resume == fpc }

/-- Whether a strand stands between two bundles, as an entry finds it: no turn of its bundle is left and none of its operations is in
the middle (R39, R52, R267, R415). -/
def Strand.between (t : Strand) : Bool := t.rest.isEmpty && t.mid.isNone && !t.holds.any fun h => h.2.mid

/-- The refusal of a posted access suspends its strand between two bundles; it resumes at the access's bundle (log 27). The ordered
operations that it has issued since wait for the replay (R181, R275). -/
def State.deliverRefusal (s : State) (cn slot : Nat) : State :=
  let t := s.strand cn slot
  match t.refusal with
  | none => s
  | some r =>
    if !t.live || t.inEntry || !t.between then s
    else (s.takeException cn slot r.cause r.faddr r.fpc r.fpc).modStrand cn slot fun u => { u with
      refusal := none, ordHeld := u.ordHeld.map fun h => { h with upto := some (h.upto.getD s.nextRid) } }

/-- Whether a refusal is due that `deliverRefusal` raises. -/
def Strand.refusalDue (t : Strand) : Bool := t.live && t.refusal.isSome && !t.inEntry && t.between

/-- Whether the handler strand is empty. -/
def Core.handlerEmpty (c : Core) : Bool := !(c.strand 11).live

/-- The handler strand becomes live at a PC, whose bits [1:0] are zero (R58), in a mode; its other registers keep their
values (R232, R273). -/
def Core.startHandler (c : Core) (pc : Addr) (sup : Bool) (run : HandlerRun) : Core :=
  { c.setStrand 11 { c.strand 11 with
      live := true, pc := pc &&& ~~~3, sup := sup, susp := none, refusal := none, ordHeld := [], holds := [], await := none, notReady := 0, yielded := false,
      jumped := true } with run := run }

/-- A fault entry starts for a suspended strand (R273): CAUSE, FADDR, FPC and FSLOT are written and the handler becomes
live at FHND in supervisor mode. -/
def Core.enterFault (c : Core) (slot : Nat) (r : FaultRec) : Core :=
  let c1 := c.setStrand slot { c.strand slot with inEntry := true }
  let c2 := { c1 with regs := { c1.regs with
    cause := BitVec.ofNat 64 r.cause, faddr := r.faddr, fpc := r.fpc.setWidth 64, fslot := BitVec.ofNat 64 slot } }
  c2.startHandler (c.regs.fhnd.setWidth 56) true (.strand slot)

/-- A ticket fault entry starts (R212): no strand is suspended. -/
def Core.enterTicket (c : Core) (n : Nat) (t : Ticket) : Core :=
  let c1 := c.setTicket n { t with entryWaits := false }
  let c2 := { c1 with regs := { c1.regs with
    cause := BitVec.ofNat 64 (t.cause + 2 ^ 8 + n * 2 ^ 9), faddr := t.faddr, fpc := t.pc.setWidth 64,
    fslot := BitVec.ofNat 64 (if t.owner = 15 then 0 else t.owner) } }
  c2.startHandler (c.regs.fhnd.setWidth 56) true (.ticket n)

/-- The tickets of a strand that ends are no longer a strand's own (R353); who owns them is another matter (R211). -/
def Core.endIssuer (c : Core) (slot : Nat) : Core :=
  { c with tickets := c.tickets.map fun t => if t.issuer == slot then { t with past := true } else t }

/-- The handler slot empties: its run ends and its queue claim ends (R235, R274). R34 and R211 pass on the tickets of helper and
control strands and are silent on those of the handler: they keep OWNER 11 (DESIGN CHOICE, log 69). -/
def Core.endHandler (c : Core) : Core :=
  { (c.endIssuer 11).setStrand 11 { c.strand 11 with live := false, holds := [] } with
    run := .idle, regs := { c.regs with claim := if c.regs.claim = some 11 then none else c.regs.claim } }

/-- RETURN FROM AN EXCEPTION (R274, R395): a strand entry resumes the strand at the point its cause gives, in the mode it
held; a ticket entry or a message run resumes no strand. The handler slot empties. -/
def Core.returnFromHandler (c : Core) : Core :=
  match c.run with
  | .strand slot =>
    (c.setStrand slot { c.strand slot with
      susp := none, inEntry := false, divFree := 0 }).endHandler
  | _ => c.endHandler

/-! ### How a word ends -/

/-- A wait that has begun with a request or an arrival. -/
inductive Act where
  | request (r : Req)
  | arrive (die dom : Nat) (vote : Option Bool) (map : Option (List Byte))
  | sample
  | tlbi (scope : Nat) (global : Bool) (va : Option Nat)
  | mode
  | idle
  /-- The implicit wait of EXIT, or of NEXT, on the strand's attached tickets (R208). -/
  | observe (next : Bool)
  /-- A table word takes what it has not yet taken of these tiles, and may ask for its step tag (R355). -/
  | tiles (dst : Option Nat) (srcs : List Nat) (ask : Option Req)
  /-- AZERO or ACVT arrives at the array, with what it reads and writes there (R243). -/
  | array (reads writes : List (Nat × Nat))
  deriving DecidableEq, Repr

/-- Whether a wait that begins takes an issue cycle: the implicit waits and the wait for a grant are waits of a strand that is
not ready (R37). -/
def Act.issues : Act → Bool
  | .observe _ | .tiles .. => false
  | _ => true

/-- What executing one word gives: completion with flags, completion followed by a cause, a trap, a wait, a wait noted
for the word, a wait that begins with an act, or a control value at a port (R61, R237). -/
inductive Res where
  | done (s : State) (flags : Nat)
  | late (s : State) (flags : Nat) (cause : Nat) (faddr : Word)
  | trap (cause : Nat) (faddr : Word)
  | wait
  | mark (h : Hold)
  | start (a : Act)
  | control (port : Nat)

/-- The note of the executing word, if it has begun to wait. -/
def State.held (s : State) : Option Hold := (s.me.holds.find? fun h => h.1 == s.cur.pc).map (·.2)

/-- Sets the note of the executing word. -/
def State.note (s : State) (h : Hold) : State :=
  s.modMe fun t => { t with holds := (s.cur.pc, h) :: t.holds.filter fun x => x.1 != s.cur.pc }

/-- Records how the word ended. -/
def State.setEnding (s : State) (e : Ending) : State := { s with cur := { s.cur with ending := e } }

/-- The address after the bundle. -/
def Cursor.after (c : Cursor) : Addr := c.bundle + BitVec.ofNat 56 (4 * c.len)

/-- The code, no cause of R270, of a word that waits since the home of a page-table entry holds its line (R165, R166, R180). -/
def heldCause : Nat := 0xFF

/-- Where RTE resumes for a cause (R271): after the bundle for 0x0D, 0x10 and 0x17, else the bundle again. -/
def Cursor.resume (c : Cursor) (cause : Nat) : Addr :=
  if cause = 0x0D || cause = 0x10 || cause = 0x17 then c.after else c.bundle

/-- A register write of a request lands (R257): in the middle of a bundle it goes to the results of the bundle's first words, and
to the registers that the bundle reads when an earlier bundle sent the request. -/
def Strand.land (t : Strand) (p : Pend) (v : BitVec 128) : Strand :=
  match t.mid with
  | none => t.setReg p.reg v
  | some m => { (if p.rid < m.since then t.setReg p.reg v else t) with
      mid := some (match p.reg with
        | .x r => if r = 0 then m else { m with x := m.x.setIfInBounds r (v.setWidth 64) }
        | .v r => { m with v := m.v.setIfInBounds r v }
        | .p r => { m with p := m.p.setIfInBounds r (v.setWidth 16) }) }

/-- One turn of the strand passes for its counted pending writes (R257): those that are due are written, and one that is due
without its value has no turn left. -/
def Strand.tick (t : Strand) : Strand :=
  let due := t.pend.filter fun p => p.val.isSome && match p.turns with | some n => n ≤ 1 | none => false
  let keep := t.pend.filterMap fun p => match p.turns with
    | none => some p
    | some n => if n ≤ 1 then (if p.val.isSome then none else some { p with turns := some 0 }) else some { p with turns := some (n - 1) }
  due.foldl (fun u p => u.setReg p.reg (p.val.getD 0)) { t with pend := keep }

/-- The executing strand raises a cause. An issue that is not replayed counts as a turn (R257). -/
def State.raise (s : State) (cause : Nat) (faddr : Word) : State :=
  let t := s.takeException s.cur.cn s.cur.slot cause faddr s.cur.bundle (s.cur.resume cause)
  if s.cur.resume cause = s.cur.bundle then t else t.modMe Strand.tick

/-- A bundle completes with its flags (R108): an enabled flag abandons it with cause 0x0D; otherwise the flags become
sticky and control goes to the target or to the next bundle. `s` is the state before the bundle, `t` the state after. -/
def State.commit (s t : State) (flags : Nat) : State :=
  if flagsTrap s.src.fctl.toNat flags then
    (s.raise 0x0D (BitVec.ofNat 64 flags)).setEnding (.trap 0x0D (BitVec.ofNat 64 flags))
  else
    (t.modMe fun u => { u with
      flags := u.flags ||| BitVec.ofNat 64 flags, holds := [],
      pc := if u.susp.isSome then u.pc else t.cur.target.getD s.cur.after, jumped := t.cur.target.isSome }).setEnding .done

/-- A strand with the registers that the finished words of its bundle leave. -/
def Strand.resume (t : Strand) (m : Mid) : Strand :=
  { t with x := m.x, v := m.v, p := m.p, fctl := m.fctl, flags := m.status, rkey := m.rkey, sid := m.sid, draw := m.draw, arm := m.arm }

/-- Whether a request or a ticket belongs to a word of the executing bundle that stands after the executing one (R61). -/
def Cursor.isLater (c : Cursor) (rid : Nat) : Bool := c.later.1 ≤ rid && rid < c.later.2

/-- A strand in the middle of a bundle (R61): it keeps the registers `t` that the bundle's words read. -/
def Strand.pause (u t : Strand) (m : Mid) : Strand :=
  { u with
    x := t.x, v := t.v, p := t.p, fctl := t.fctl, flags := t.flags, rkey := t.rkey, sid := t.sid, draw := t.draw, arm := t.arm
    mid := some { m with x := u.x, v := u.v, p := u.p, fctl := u.fctl, status := u.flags, rkey := u.rkey, sid := u.sid
                         draw := u.draw, arm := u.arm } }

/-- A queue control value is taken (R237): QCODE is written and the strand continues at QHND; a QHND that is 0 or not a
multiple of 4 raises 0x04 and pops nothing. An address, bits 55:0, of 0 counts as 0 (DESIGN CHOICE, log 96). -/
def State.takeControl (s : State) (port : Nat) : State :=
  let c := s.myCore
  let q := c.queues[port]?.getD []
  let qhnd := c.regs.qhnd
  if qhnd.toNat % 2 ^ 56 = 0 || qhnd.toNat % 4 ≠ 0 then s.raise 0x04 qhnd
  else
    let v := (q.headD { tag := true, val := 0 }).val.toNat % 256
    let code := fld s.cur.bundle.toNat 2 54 * 2 ^ 10 + port * 2 ^ 8 + v
    ((s.modMyCore fun c => c.giveTiles s.cur.slot).modMyCore fun c => { c with
      queues := c.queues.setIfInBounds port q.tail, regs := { c.regs with qcode := BitVec.ofNat 64 code } }).modMe
      fun t => { t with pc := qhnd.setWidth 56, holds := [], jumped := true }

/-- The low bit of the address prefix that an entry of a level covers (R147). -/
def levelShift (level : Nat) : Nat := 46 - 10 * level

/-- Whether TLBI removes a cached entry (R154): the partition's entries for the address, or all; a leaf with G = 1 stays
without .g. -/
def TlbEntry.removed (e : TlbEntry) (part : Nat) (global : Bool) (va : Option Nat) : Bool :=
  e.part == part && (match va with | none => true | some a => e.tag == a / 2 ^ levelShift e.level) &&
    (global || fld e.pte.toNat 48 2 == 0 || !bit e.pte.toNat 54)

/-- The key of the shared TLB of a core: its cluster's, or its dense tile's (R152). -/
def tlbKey (cn : Nat) : Nat := if isDense cn then 1024 + denseIx cn else clusterOf cn

/-- The die of a shared TLB. -/
def tlbDie (key : Nat) : Nat := if key < 1024 then key / 512 else (key - 1024) / 16

/-- Removes cached translations in a scope (R154): 1 the core's micro-TLB, 2 its cluster or tile, 3 its die, 4 the device. -/
def State.invalidate (s : State) (cn scope : Nat) (global : Bool) (va : Option Nat) : State :=
  let part := s.partNo cn
  let keep (l : List TlbEntry) := l.filter fun e => !e.removed part global va
  let coreIn (x : Nat) := match scope with
    | 1 => x == cn
    | 2 => tlbKey x == tlbKey cn
    | 3 => dieOf x == dieOf cn
    | _ => true
  let sharedIn (k : Nat) := match scope with
    | 1 => false
    | 2 => k == tlbKey cn
    | 3 => tlbDie k == dieOf cn
    | _ => true
  { s with
    cores := s.cores.map fun c => if coreIn c.1 then (c.1, { c.2 with microTlb := keep c.2.microTlb }) else c
    clusterTlb := s.clusterTlb.map fun t => if sharedIn t.1 then (t.1, keep t.2) else t }

/-- Whether a strand of the core waits on a ticket or has not yet taken its end (R207). -/
def Core.awaits (c : Core) (n gen : Nat) : Bool :=
  c.strands.toList.any fun t => t.holds.any fun h => match h.2 with
    | .waitt k g => k == n && g == gen
    | .observed k g _ _ => k == n && g == gen
    | _ => false

/-- Frees a slot: its generation stays (R204). -/
def Core.freeTicket (c : Core) (n : Nat) : Core := c.setTicket n { Ticket.empty with gen := (c.ticket n).gen }

/-- Whether an ended ticket now frees (R207): retired by an observation, or detached with no strand waiting. -/
def Core.freesNow (c : Core) (n : Nat) : Bool :=
  let t := c.ticket n
  t.live && t.st != .pending && (t.retire || (t.det && !t.seen)) && !c.awaits n t.gen

/-- The KIND 3 record of a detached FAULTED ticket (R207, R292). -/
def ticketRecord (cn n : Nat) (t : Ticket) : List Byte :=
  errRecord 3 t.cause cn (t.owner + n * 16) t.pc.toNat t.faddr.toNat t.elem

/-- Frees the slots of a core that free now, with the records of detached FAULTED tickets. -/
def State.sweepTickets (s : State) (cn : Nat) : State :=
  (List.range 64).foldl (fun u n =>
    let c := u.core cn
    let t := c.ticket n
    if c.freesNow n then
      let v := u.setCore cn (c.freeTicket n)
      if t.st = .faulted && !t.retire then v.report (v.partNo cn) [ticketRecord cn n t] else v
    else u) s

/-- Marks a ticket's end as observed by a strand (R207): a FAULTED one stays live unless the observation retires it. -/
def Ticket.observedBy (t : Ticket) (nt : Bool) : Ticket := if t.st = .faulted && !nt then t else { t with retire := true }

/-- The strand's attached tickets (R208). -/
def Core.attached (c : Core) (slot : Nat) : List Nat :=
  (List.range 64).filter fun n => (c.ticket n).live && (c.ticket n).owner == slot && !(c.ticket n).det

/-- The implicit observation of the ended attached tickets of a strand that did not fault (R208, R209). -/
def State.observeAttached (s : State) (slot : Nat) : State :=
  let cn := s.cur.cn
  let c := s.core cn
  let ended := (c.attached slot).filter fun n => (c.ticket n).st == .done || (c.ticket n).st == .cancelled
  let flags := ended.foldl (fun f n => f ||| (c.ticket n).tflags) 0
  let c1 := ended.foldl (fun d n => d.setTicket n ((d.ticket n).observedBy false)) c
  ((s.setCore cn c1).modStrand cn slot fun t => { t with flags := t.flags ||| BitVec.ofNat 64 flags }).sweepTickets cn

/-- Begins a wait. -/
def State.begin (s : State) : Act → State
  | .request r =>
    let s1 := match r.op with
      | .tstep .. => s.modMyCore fun c => { c with tstepSeq := c.tstepSeq + 1 }
      | _ => s
    (s1.send [r]).note (.reply s.nextRid)
  | .arrive die dom vote map =>
    let key := die * 64 + dom
    let s1 := match getKey s.doms key with
      | none => s
      | some d => { s with doms := putKey s.doms key { d with
          arrived := insertNat s.cur.cn d.arrived, votes := vote.toList ++ d.votes } }
    (s1.modMyCore fun c => match map with
      | some m => { c with slotMap := putKey c.slotMap dom m }
      | none => c).note (.barrier die dom vote)
  | .sample => s.note (.sample (BitVec.ofNat 64
      (let v := (s.partFor s.cur.cn).vsel
       v.sel * 2 ^ 48 + b2n v.follow * 2 ^ 16 + v.ver)))
  | .tlbi scope global va => (s.invalidate s.cur.cn scope global va).note (.tlbi s.nextRid)
  | .mode => s.note .mode
  | .observe n => (s.observeAttached s.cur.slot).note (.implicit n)
  | .idle => s.note .idle
  | .array reads writes => { s.note (.array s.nextRid reads writes) with nextRid := s.nextRid + 1 }
  | .tiles dst srcs ask =>
    let old := s.held.bind Hold.taken
    let s1 := s.modMyCore fun c => c.takeFor (if old.any (·.1.isSome) then none else dst) (if old.isSome then [] else srcs) false
    match ask with
    | none => s1.note (.tiles dst srcs)
    | some r => (s1.send [r]).note (.tilesAsked dst srcs s.nextRid)

/-- How a word ends, for a bundle of one word and for one word of several (R61, R108). -/
def State.settle (s : State) (r : Res) : Host.Outcome State Fault Refusal :=
  .next (match r with
    | .done t f =>
      if s.cur.multi then { t with cur := { t.cur with flags := t.cur.flags ||| f, ending := .done } } else s.commit t f
    | .late t f c a =>
      if s.cur.multi then { t with cur := { t.cur with flags := t.cur.flags ||| f, ending := .late c a } }
      else
        let u := s.commit t f
        if u.cur.ending = .done then (u.takeException s.cur.cn s.cur.slot c a s.cur.bundle s.cur.after).setEnding (.late c a)
        else u
    | .trap c a =>
      if c = heldCause then s.setEnding .waiting else (if s.cur.multi then s else s.raise c a).setEnding (.trap c a)
    | .wait => s.setEnding .waiting
    | .mark h => (s.note h).setEnding .waiting
    | .start a => (s.begin a).setEnding (if a.issues then .begun else .waiting)
    | .control p => (if s.cur.multi then s else s.takeControl p).setEnding (.control p))

/-- A supervisor-only word: user mode raises cause 0x03 (R94, R95). -/
def State.sup (s : State) (r : Res) : Res := if s.me.sup then r else .trap 0x03 0

/-- A word of slot 0 only: another slot raises cause 0x01 (R94). -/
def State.slot0 (s : State) (r : Res) : Res := if s.cur.slot = 0 then r else .trap 0x01 0

/-- A matrix-class word: a bobbin core raises cause 0x01 (R93). -/
def State.matrix (s : State) (r : Res) : Res := if isDense s.cur.cn then r else .trap 0x01 0

end Sys2Proof.Machine
end

