-- ==== Sys2Proof/Machine/Translate.lean ====
section
/-! DEFINITION. Translation (R147 to R154) and the regions of physical memory (R128 to R132): from a virtual address to the
home that performs the access, or a cause. -/
namespace Sys2Proof.Machine

/-- The key of a line at a home slice. -/
def lineKey (home pa : Nat) : Nat := home * 2 ^ 49 + pa / 128 % 2 ^ 49

/-- The current byte at a physical address of regions 0x0 to 0x2, as a page walker reads it: a dirty cached line first,
then any cached line, then storage (log 9). -/
def State.peek (s : State) (pa : Nat) : Byte :=
  let here := s.l2.filter fun l => l.1 % 2 ^ 49 == pa / 128
  match here.find? fun l => l.2.dirty != 0 with
  | some l => l.2.data.getD (pa % 128) 0
  | none => match here with
    | l :: _ => l.2.data.getD (pa % 128) 0
    | [] => s.mem.read (s.storeKey pa)

/-- Whether the line of a physical address is poisoned where `peek` reads it (R285). -/
def State.peekPoison (s : State) (pa : Nat) : Bool :=
  let here := s.l2.filter fun l => l.1 % 2 ^ 49 == pa / 128
  match here.find? fun l => l.2.dirty != 0 with
  | some l => l.2.poison
  | none => match here with
    | l :: _ => l.2.poison
    | [] => s.poison.contains (s.storeKey (pa / 128 * 128) / 128)

/-- Cause 0x13 with the address of the failing storage above it (R285, R292). -/
def poisonCause (pa : Nat) : Nat := 0x13 + 2 ^ 8 * pa

/-- Whether the home holds accesses to a line: a write of one of its words waits for the loss of ownership (R165, R169), a SHIP
for the update engine (R180), or an element that reached the home first owns the line until it has written it (R176). `rid` is the
access itself. -/
def State.lineHeld (s : State) (pa rid : Nat) : Bool :=
  s.net.any fun q => q.rid != rid && match q.op, q.home with
    | .loss w _ _ _, _ => w / 16 == pa / 128
    | .ship _ _ true, .line b _ _ _ => b / 128 == pa / 128
    | .move us _, _ => q.rid < rid && us.any fun u => match u.2 with
      | .line b _ _ _ => b / 128 == pa / 128
      | _ => false
    | _, _ => false

/-- Whether the home of an engine's access holds it (R165, R176, R180). -/
def State.homeHeld (s : State) (h : Home) : Bool :=
  match h with
  | .line pa _ _ _ => s.lineHeld pa s.nextRid
  | _ => false

/-- n bytes at a physical address as a number. -/
def State.peekN (s : State) (pa n : Nat) : Nat := leNat ((List.range n).map fun i => s.peek (pa + i))

/-- An access to be translated: issuing core, partition, mode, selector bit, what it needs (R148), and whether it is an
element's. -/
structure Access where
  cn : Nat
  part : Nat
  sup : Bool
  sel : Nat
  rd : Bool
  wr : Bool
  ex : Bool
  engine : Bool := false
  deriving DecidableEq, Repr

/-- Fields of a page-table entry (R148). -/
def pteV (e : Nat) : Bool := bit e 0
def pteState (e : Nat) : Nat := fld e 1 2
def pteFrame (e : Nat) : Nat := fld e 8 36
def pteSize (e : Nat) : Nat := fld e 48 2
def pteHome (e : Nat) : Nat := fld e 55 3
def ptePol (e : Nat) : Nat := fld e 58 2
def pteRegion (e : Nat) : Nat := fld e 60 4

/-- The bytes of a page at a level, as a power of two. -/
def pageBits (level : Nat) : Nat := 46 - 10 * level

/-- The outcome of reading one entry (R149). -/
inductive Entry where
  | table (base : Nat)
  | leaf
  | bad (cause : Nat)
  deriving DecidableEq, Repr

/-- Rows two and one of R149 on the entry read at a level, and STATE = 1 of a leaf. -/
def checkEntry (level e : Nat) : Entry :=
  let region := pteRegion e
  let isLeaf := pteSize e ≠ 0
  let align := 2 ^ (pageBits level + (if pteState e = 3 then 1 else 0) - 16)
  if !pteV e || (isLeaf && pteState e = 0) then .bad 0x05
  else if fld e 44 4 ≠ 0 || fld e 3 5 ≠ 0 then .bad 0x07
  else if isLeaf then
    if pteSize e ≠ level || level = 0 || (3 ≤ region && region ≤ 0xB) || pteFrame e % align ≠ 0 then .bad 0x07
    else if pteState e = 1 then .bad 0x06
    else .leaf
  else if 2 < level || 1 < region then .bad 0x07
  else .table (region * 2 ^ 52 + pteFrame e * 2 ^ 16)

/-- Whether U, R, W or X refuses the access (R149). -/
def refuses (a : Access) (e : Nat) : Bool :=
  (!a.sup && !bit e 53) || (a.rd && !bit e 50) || (a.wr && !bit e 51) || (a.ex && !bit e 52)

/-- What a walk finds: the leaf, its level, the address of the leaf entry, and the entries read (R147). -/
structure Walk where
  pte : Nat
  level : Nat
  addr : Nat
  read : List (Nat × Nat)
  deriving DecidableEq, Repr

/-- The walk from a level on, with the checks of R149 but for U, R, W and X; a poisoned entry is the fatal cause (R285), and
one whose line its home holds is waited for. -/
def walkFrom (s : State) (va : Nat) : (fuel level base : Nat) → List (Nat × Nat) → Except Nat Walk
  | 0, _, _, _ => .error 0x07
  | fuel + 1, level, base, read =>
    let addr := base + 8 * fld va (levelShift level) 10
    let e := s.peekN addr 8
    if s.lineHeld addr s.nextRid then .error heldCause
    else if s.peekPoison addr then .error (poisonCause addr)
    else match checkEntry level e with
    | .bad c => .error c
    | .leaf => .ok { pte := e, level := level, addr := addr, read := (level, e) :: read }
    | .table b => walkFrom s va fuel (level + 1) b ((level, e) :: read)

/-- The base of the root table: PTROOT names it as a physical address (log 9). -/
def Part.root (p : Part) : Nat := p.ptroot.toNat / 2 ^ 16 * 2 ^ 16 % 2 ^ 56

/-- A full walk from the root. -/
def State.walk (s : State) (part va : Nat) : Except Nat Walk := walkFrom s va 4 0 (s.part part).root []

/-- The physical address of a virtual address under a leaf, with the selector bit of a versioned page (R151). -/
def leafPa (pte level va sel : Nat) : Nat :=
  let half := if pteState pte = 3 then sel * 2 ^ pageBits level else 0
  pteRegion pte * 2 ^ 52 + (pteFrame pte * 2 ^ 16 + half + fld va 0 (pageBits level)) % 2 ^ 52

/-- The cached entries a core may use (R152). -/
def State.tlb (s : State) (cn : Nat) : List TlbEntry :=
  (s.core cn).microTlb ++ (getKey s.clusterTlb (tlbKey cn)).getD []

/-- The selector bit recorded with a leaf; 2 for a page that is not versioned (R151). -/
def tlbSel (pte sel : Nat) : Nat := if pteState pte = 3 then sel else 2

/-- Records the entries of a walk in the core's TLBs (R152): 16 in the micro-TLB, 1,024 in the shared one. -/
def State.cacheWalk (s : State) (a : Access) (va : Nat) (w : Walk) : State :=
  let es := w.read.map fun r =>
    ({ part := a.part, level := r.1, tag := va / 2 ^ levelShift r.1,
       sel := if pteSize r.2 = 0 then 2 else tlbSel r.2 a.sel, pte := BitVec.ofNat 64 r.2 } : TlbEntry)
  let add (old : List TlbEntry) (n : Nat) := (es.filter (fun e => !old.contains e) ++ old).take n
  let key := tlbKey a.cn
  { s.modCore a.cn (fun c => { c with microTlb := add c.microTlb 16 }) with
    clusterTlb := putKey s.clusterTlb key (add ((getKey s.clusterTlb key).getD []) 1024) }

/-- Translation of a virtual address at or above 0x8_0000 (R149 to R152): the leaf and its level, or a cause. A cached
leaf or table pointer may serve, by a free choice (R153, log 12); a failure is raised only when a walk from memory
confirms it (R150). Full TLBs give up their oldest entries: R152 names no replacement (DESIGN CHOICE, log 12). -/
def State.translate (s : State) (a : Access) (va : Nat) : Except Nat (Nat × Nat) × State :=
  let full : Except Nat (Nat × Nat) × State :=
    match s.walk a.part va with
    | .error c => (.error c, s)
    | .ok w => if refuses a w.pte then (.error 0x07, s) else (.ok (w.pte, w.level), s.cacheWalk a va w)
  let hits := (s.tlb a.cn).filter fun e => e.part == a.part && e.tag == va / 2 ^ levelShift e.level
  let leaves := hits.filter fun e => pteSize e.pte.toNat != 0 && (e.sel == 2 || e.sel == a.sel) && !refuses a e.pte.toNat
  let tables := hits.filter fun e => pteSize e.pte.toNat == 0
  if leaves.isEmpty && tables.isEmpty then full
  else
    let (k, s1) := s.choose (1 + leaves.length + tables.length)
    let again : Except Nat (Nat × Nat) × State := ({ full.2 with choices := s1.choices } |> fun t => (full.1, t))
    if k = 0 then again
    else match leaves[k - 1]? with
      | some e => (.ok (e.pte.toNat, e.level), s1)
      | none => match tables[k - 1 - leaves.length]? with
        | none => again
        | some e =>
          let base := pteRegion e.pte.toNat * 2 ^ 52 + pteFrame e.pte.toNat * 2 ^ 16
          match walkFrom s va 4 (e.level + 1) base [] with
          | .error _ => again
          | .ok w => if refuses a w.pte then again else (.ok (w.pte, w.level), s1.cacheWalk a va w)

/-- Where an access goes: its home, the alias window, the region (16 for the untranslated scratchpad), the physical
address, the page's L2 policy and its home field. -/
structure Target where
  home : Home
  win : Nat
  region : Nat
  pa : Nat
  pol : Nat
  hf : Nat
  deriving DecidableEq, Repr

/-- Whether a virtual address lies in windows 1 to 7 of the core's own scratchpad (R116, R117). -/
def aliasWindow (va : Word) : Bool := 0x10000 ≤ va.toNat && va.toNat < 0x80000

/-- Whether a target lies in the multicast window (R131), of this device or another. -/
def Target.isMcast (g : Target) : Bool := g.region == 0xD && bit g.pa 35

/-- Whether a DEV field names this device (R429). -/
def State.isLocal (s : State) (dev : Nat) : Bool := dev == 0xFFFF || s.dev.number == some dev

/-- Whether the fabric reaches a device: only a numbered device sends Guipure traffic (R238, R429). -/
def State.reaches (s : State) (dev : Nat) : Bool :=
  match s.dev.number with
  | none => false
  | some own => dev < 0xFFFF && dev != own && Config.fabricReaches own dev

/-- Whether the partition of a core is stopped by a fatal fault, so that its scratchpads are quarantined (R278). -/
def State.quarantined (s : State) (cn : Nat) : Bool :=
  match s.partOf? cn with
  | none => false
  | some p => (s.part p).status == .fatal

/-- The home of a physical address for n bytes (R128 to R132, R135, R286), or the cause; an element never reaches region 0xF
(R343, R360). -/
def State.region (s : State) (a : Access) (pa pte n : Nat) : Except Nat Target :=
  let region := fld pa 52 4
  let dev := fld pa 36 16
  let p := s.part a.part
  let mk (h : Home) (win : Nat) : Except Nat Target :=
    .ok { home := h, win := win, region := region, pa := pa, pol := ptePol pte, hf := pteHome pte }
  let line : Except Nat Target :=
    match s.homeOf p pa (pteHome pte) with
    | none => .error 0x07
    | some h => mk (.line pa h (ptePol pte) (pteHome pte)) 0
  let scratch (cn off win : Nat) : Except Nat Target :=
    if !p.holds cn then .error 0x07 else if s.quarantined cn then .error 0x14 else mk (.scratch cn off) win
  match region with
  | 0x0 | 0x1 => if fld pa 40 12 ≠ 0 then .error 0x07 else line
  | 0x2 =>
    match s.dev.extents.find? fun e => e.num == fld pa 30 22 && e.part == a.part with
    | none => .error 0x07
    | some e => if e.releasing || e.revoked then .error 0x0E else line
  | 0xC =>
    let cn := fld pa 20 16
    let win := fld pa 16 4
    if !s.isLocal dev then (if s.reaches dev && isCore cn && win < 8 then mk (.remote dev cn (fld pa 0 16)) win else .error 0x07)
    else if 8 ≤ win then .error 0x07
    else scratch cn (fld pa 0 16) win
  | 0xD =>
    if bit pa 35 then
      if fld pa 23 12 ≠ 0 then .error 0x07
      else if !s.isLocal dev then (if s.reaches dev then mk (.remoteMcast dev) 0 else .error 0x07)
      else mk (.mcast (fld pa 22 1) (fld pa 16 6) (fld pa 0 16)) 0
    else if fld pa 31 4 ≠ 0 then .error 0x07
    else if !s.isLocal dev && !s.reaches dev then .error 0x07
    else if 256 < fld pa 0 8 + n then .error 0x04
    else
      let cn := coreInCluster (fld pa 21 10) (fld pa 8 5)
      let off := fld pa 13 8 * 256 + fld pa 0 8
      if !s.isLocal dev then mk (.remote dev cn off) 0 else scratch cn off 0
  | 0xE =>
    let cn := fld pa 20 16
    if !s.isLocal dev || fld pa 15 5 ≠ 0 || isDense cn || !p.holds cn || p.conv * 6144 ≤ fld pa 0 15 then .error 0x07
    else if s.quarantined cn then .error 0x14
    else mk (.chip cn (fld pa 0 15)) 0
  | 0xF =>
    if a.engine then .error 0x04
    else if !a.sup then .error 0x03
    else if !s.isLocal dev || fld pa 20 16 ≠ 0x100 + a.part then .error 0x07
    else mk (.dev (fld pa 20 16) (fld pa 0 20)) 0
  | _ => .error 0x07

/-- The target of an access of n bytes at a virtual address, or its cause (R116, R147, R149, R128); FADDR is the virtual
address. -/
def State.resolve (s : State) (a : Access) (va : Word) (n : Nat) : Except Nat Target × State :=
  let v := va.toNat
  if 2 ^ 56 ≤ v then (.error 0x07, s)
  else if v < 0x80000 then
    (.ok { home := .scratch a.cn (fld v 0 16), win := fld v 16 3, region := 16, pa := v, pol := 0, hf := 0 }, s)
  else match s.translate a v with
    | (.error c, s1) => (.error c, s1)
    | (.ok (pte, level), s1) => (s1.region a (leafPa pte level v a.sel) pte n, s1)

/-- The physical address that an access would have, if its address translates (R149). -/
def State.paOf (s : State) (a : Access) (va : Word) : Option Nat :=
  if va.toNat < 0x80000 || 2 ^ 56 ≤ va.toNat then none
  else match (s.translate a va.toNat).1 with
    | .ok (pte, level) => some (leafPa pte level va.toNat a.sel)
    | .error _ => none

/-- The selector bit of a strand's own access (R151). -/
def State.selBit (s : State) (cn : Nat) : Nat := (s.partFor cn).vsel.sel

/-- The access of the executing strand, by VSEL as its bundle reads it (R61, R202). -/
def State.access (s : State) (rd wr : Bool) : Access :=
  { cn := s.cur.cn, part := s.partNo s.cur.cn, sup := s.me.sup, sel := s.srcPart.vsel.sel, rd := rd, wr := wr, ex := false }

/-- Whether a user-mode write of n bytes touches a locked handler table (R233). -/
def State.lockRefuses (s : State) (sup : Bool) (h : Home) (n : Nat) : Bool :=
  match h with
  | .scratch cn off =>
    let htab := (s.core cn).regs.htab.toNat
    !sup && bit htab 63 && off < fld htab 0 16 + 128 && fld htab 0 16 < off + n
  | _ => false

end Sys2Proof.Machine
end

