-- ==== Sys2Proof/Machine/Access.lean ====
section
/-! DEFINITION. Accesses at their homes: L2 slices (R134 to R142, R285), ownership and near caches (R140, R169 to R171), the
bytes behind every home, and reads and writes through the page table. -/
namespace Sys2Proof.Machine

/-- The effective policy of an access (R141): 0 normal, 1 streaming, 2 no allocate, 3 bypass. Hint 3 is that of AMO, CAS, LDA
and STL, which take the normal row whatever the page says (R142). -/
def effPolicy (pol hint : Nat) : Nat :=
  if hint = 3 then (if pol = 1 then 1 else 0)
  else if pol = 3 || hint = 2 then 3 else if pol = 2 || hint = 1 then 2 else pol

/-- The set of a line in its slice (R134). -/
def l2Set (pa : Nat) : Nat := fld pa 7 14 % 48

/-- The caching ways of a slice: those not converted to chip scratchpad (R132). -/
def State.ways (s : State) (home : Nat) : Nat := 8 - (s.partFor home).conv

/-- The storage line of a physical address, as the key of its poison mark (R285). -/
def State.poisonKey (s : State) (pa : Nat) : Nat := s.storeKey (pa / 128 * 128) / 128

/-- The physical address of a line key. -/
def linePa (key : Nat) : Nat := key % 2 ^ 49 * 128

/-- Sets or clears the poison of a storage line. -/
def State.setPoison (s : State) (pa : Nat) (p : Bool) : State :=
  let k := s.poisonKey pa
  { s with poison := if p then insertNat k s.poison else s.poison.filter (· ≠ k) }

/-- Writes the dirty bytes of a line to storage, poison kept unless they are all of it, and leaves the line clean (R285, R334). -/
def State.writeBack (s : State) (key : Nat) : State :=
  match getKey s.l2 key with
  | none => s
  | some l =>
    if l.dirty = 0 then s
    else
      let pa := linePa key
      let mem := (List.range 128).foldl (fun m j =>
        if bit l.dirty j then m.write (s.storeKey (pa + j)) (l.data.getD j 0) else m) s.mem
      ({ s with mem := mem, l2 := putKey s.l2 key { l with dirty := 0 } }).setPoison pa
        (l.poison || (l.dirty != 2 ^ 128 - 1 && s.poison.contains (s.poisonKey pa)))

/-- Drops a line without write-back. -/
def State.dropLine (s : State) (key : Nat) : State := { s with l2 := delKey s.l2 key }

/-- The 128 storage bytes of a line. -/
def State.storageLine (s : State) (pa : Nat) : List Byte :=
  (List.range 128).map fun j => s.mem.read (s.storeKey (pa / 128 * 128 + j))

/-- Brings a line into its home slice (R134): a full set gives up a line, the first-victim lines first, chosen freely
(log 11). -/
def State.fill (s : State) (home pa pol : Nat) : State :=
  let key := lineKey home pa
  match getKey s.l2 key with
  | some _ => s
  | none =>
    let same := s.l2.filter fun l => l.1 / 2 ^ 49 == home && l2Set (linePa l.1) == l2Set pa
    let s1 :=
      if same.length < s.ways home then s
      else
        let first := same.filter fun l => l.2.victim
        let pool := if first.isEmpty then same else first
        let (k, t) := s.choose pool.length
        match pool[k]? with
        | none => t
        | some l => (t.writeBack l.1).dropLine l.1
    let l : Line :=
      { data := s1.storageLine pa, dirty := 0, poison := s1.poison.contains (s1.poisonKey pa), victim := pol == 1 }
    { s1 with l2 := putKey s1.l2 key l }

/-- Bytes of a line at its home under a policy (R142), and whether the line is poisoned (R285). -/
def State.readLine (s : State) (home pa n eff : Nat) : (List Byte × Bool) × State :=
  let s1 := if eff < 2 then s.fill home pa eff else s
  match getKey s1.l2 (lineKey home pa) with
  | some l => ((slice l.data (pa % 128) n, l.poison), s1)
  | none => ((slice (s1.storageLine pa) (pa % 128) n, s1.poison.contains (s1.poisonKey pa)), s1)

/-- Byte-masked write to HBM or far memory. -/
def State.writeStorage (s : State) (pa : Nat) (bs : List Byte) : State :=
  let mem := (List.range bs.length).foldl (fun m i => m.write (s.storeKey (pa + i)) (bs.getD i 0)) s.mem
  let t := { s with mem := mem }
  if bs.length = 128 then t.setPoison pa false else t

/-- A line's data with bytes replaced. -/
def patch (data : List Byte) (off : Nat) (bs : List Byte) : List Byte :=
  (List.range 128).map fun j => if off ≤ j && j < off + bs.length then bs.getD (j - off) 0 else data.getD j 0

/-- A store of bytes within one line at its home under a policy (R142). A write of the whole line clears poison. -/
def State.writeLine (s : State) (home pa : Nat) (bs : List Byte) (eff : Nat) : State :=
  let s1 := if eff < 2 then s.fill home pa eff else s
  let key := lineKey home pa
  match getKey s1.l2 key with
  | none => s1.writeStorage pa bs
  | some l =>
    let l1 := { l with data := patch l.data (pa % 128) bs, poison := l.poison && bs.length != 128 }
    if eff = 3 then ({ s1 with l2 := putKey s1.l2 key l1 }).writeStorage pa bs
    else { s1 with l2 := putKey s1.l2 key { l1 with dirty := l1.dirty ||| ((2 ^ bs.length - 1) * 2 ^ (pa % 128)) } }

/-- The aligned 8-byte words that n bytes at an address touch (R169). -/
def wordsOf (pa n : Nat) : List Nat := (List.range ((pa + n - 1) / 8 - pa / 8 + 1)).map (pa / 8 + ·)

/-- The loss notice for a word of the slice of core `homeCn` on its way to the core that loses it (R169), for a write of order group
`og`, which is not performed before (R165, R181). -/
def lossReq (part src slot word loser homeCn : Nat) (taker og : Option Nat) : Req :=
  { rid := 0, src := src, slot := slot, part := part, sup := true, va := BitVec.ofNat 64 (word * 8), fpc := 0
    home := .owner loser, op := .loss word loser homeCn taker, og := og, depart := none, due := none }

/-- A near-cache word. -/
def Core.nearWord (c : Core) (w : Nat) : Option NearWord := getKey c.near w

/-- The lines of which a near cache holds words. -/
def Core.nearLines (c : Core) : List Nat := sortNats (c.near.map (·.1 / 16))

/-- Makes room for a line in a near cache of 64 lines (R18, R140): a full one gives up a line, chosen freely (log 24). -/
def State.nearRoom (s : State) (cn line : Nat) : State :=
  let ls := (s.core cn).nearLines
  if ls.contains line || ls.length < 64 then s
  else
    let (k, t) := s.choose ls.length
    t.modCore cn fun c => { c with near := c.near.filter fun w => w.1 / 16 != ls.getD k 0 }

/-- The near copy of written words in the writing core, marked owned (R140, R169); a core holds no near copy of its own
slice's lines, nor of a poisoned line, whose bytes no read may give (R285). -/
def State.nearOwn (s : State) (cn home : Nat) (ws : List Nat) : State :=
  if cn = home then s
  else match ws with
    | [] => s
    | w0 :: _ =>
      if s.peekPoison (w0 * 8) then s
      else
        let own (m : List (Nat × NearWord)) (w : Nat) : List (Nat × NearWord) :=
          putKey m w { val := BitVec.ofNat 64 (s.peekN (w * 8) 8), owned := true, home := home }
        (s.nearRoom cn (w0 / 16)).modCore cn fun c => { c with near := ws.foldl own c.near }

/-- A load's fill of the near cache with a line (R140): owned copies stay. -/
def State.nearFill (s : State) (cn home pa : Nat) : State :=
  if cn = home || s.peekPoison pa then s
  else (s.nearRoom cn (pa / 128)).modCore cn fun c => { c with near := (List.range 16).foldl (fun m j =>
    let w := pa / 128 * 16 + j
    match getKey m w with
    | some x => if x.owned then m else putKey m w { x with val := BitVec.ofNat 64 (s.peekN (w * 8) 8), home := home }
    | none => putKey m w { val := BitVec.ofNat 64 (s.peekN (w * 8) 8), owned := false, home := home }) c.near }

/-- Ownership after a write at the home (R169): the words go to the writing core, or to none for an engine, and every other
previous owner is sent a loss notice. The writer's near cache takes the words with the acknowledgement, which comes at once
where nobody loses one. -/
def State.takeWords (s : State) (part src slot : Nat) (writer : Option Nat) (homeCn pa n : Nat) (og : Option Nat := none) : State :=
  let ws := wordsOf pa n
  let losers := ws.filterMap fun w => match getKey s.owner w with
    | some o => if writer = some o then none else some (lossReq part src slot w o homeCn writer og)
    | none => none
  let t := ws.foldl (fun (u : State) w =>
    { u with owner := match writer with | some c => putKey u.owner w c | none => delKey u.owner w }) (s.send losers)
  match writer with
  | some c => if losers.isEmpty then t.nearOwn c homeCn ws else t
  | none => t

/-- Whether a home core lies in the scope group of a core (R170). -/
def inScope (cn home scope : Nat) : Bool :=
  match scope with
  | 0 => false
  | 1 => home == cn
  | 2 => if isDense cn then dieOf home == dieOf cn else !isDense home && clusterOf home == clusterOf cn
  | 3 => dieOf home == dieOf cn
  | _ => true

/-- The core at which a home stands, for scope tests. -/
def Home.core : Home → Option Nat
  | .scratch cn _ => some cn
  | .chip cn _ => some cn
  | .line _ cn _ _ => some cn
  | .owner cn => some cn
  | _ => none

/-- Whether a request's home is in a scope of its core (R170): homes on another device only in scope 5, a loss notice
with the home of its write. -/
def Req.inScope (r : Req) (scope : Nat) : Bool :=
  match r.home, r.op with
  | _, .loss _ _ c _ => Sys2Proof.Machine.inScope r.src c scope
  | .remote .., _ | .remoteMcast _, _ => scope == 5
  | h, _ => match h.core with
    | some c => Sys2Proof.Machine.inScope r.src c scope
    | none => 4 ≤ scope

/-- The self-invalidation of an acquire (R170, R171): non-owned near words homed in the group; at device and fabric
scope every non-owned word. -/
def State.acquire (s : State) (cn scope : Nat) : State :=
  if scope < 2 then s
  else s.modCore cn fun c => { c with near := c.near.filter fun w =>
    w.2.owned || !(4 ≤ scope || Sys2Proof.Machine.inScope cn w.2.home scope) }

/-- Requests that are loads (R172, R173). -/
def ReqOp.isLoad : ReqOp → Bool
  | .load .. | .loadAcq .. | .amo .. | .cas .. => true
  | _ => false

/-- Requests that count as writes for a release (R172, R324, R333, R335, R402). -/
def ReqOp.isWrite : ReqOp → Bool
  | .store .. | .amo .. | .cas .. | .cflush | .cinv | .ship .. | .loss .. => true
  | _ => false

/-- Whether a release at a scope by a strand still waits (R172): an earlier load, or an earlier write to a home in scope,
has not been performed; those of the earlier words of its own bundle count (R61). -/
def State.releaseWaits (s : State) (cn slot scope : Nat) : Bool :=
  s.net.any fun r => r.src == cn && r.slot == slot && !s.cur.isLater r.rid && (r.op.isLoad || (r.op.isWrite && r.inScope scope))

/-- Whether an earlier load of a strand has not been performed (R173). -/
def State.loadsWait (s : State) (cn slot : Nat) : Bool :=
  s.net.any fun r => r.src == cn && r.slot == slot && !s.cur.isLater r.rid && r.op.isLoad

/-- Counts one request of a core group's unit to a page. -/
def bumpHot (page group unit : Nat) : List HotCount → List HotCount
  | [] => [{ page := page, group := group, unit := unit, count := 1 }]
  | h :: r =>
    if h.page = page && h.group = group && h.unit = unit then { h with count := h.count + 1 } :: r
    else h :: bumpHot page group unit r

/-- The hot-page tracker sees a request of a core to a home (R162); the requests of partitions without migration do not count. -/
def State.countAt (s : State) (cn : Nat) (h : Home) : State :=
  match h with
  | .line pa _ _ _ =>
    if fld pa 52 4 = 1 && (s.partFor cn).migrate then { s with hot := bumpHot (fld pa 16 24) (stackOf cn) (tlbKey cn) s.hot } else s
  | _ => s

/-- Whether a request is the loss notice of a write. -/
def ReqOp.isLoss : ReqOp → Bool
  | .loss .. => true
  | _ => false

/-- Whether an ordered operation of a strand waits for the replay of a faulted atomic of its group (R181, R275); `order` is its request
number, or its ticket's. -/
def State.ordHolds (s : State) (cn slot og order : Nat) : Bool :=
  (s.strand cn slot).ordHeld.any fun h => h.og == og && h.after < order && match h.upto with
    | some e => order < e
    | none => true

/-- Whether a request is held until a faulted atomic's replay (R181, R275). -/
def State.replayHolds (s : State) (r : Req) : Bool := match r.og with
  | none => false
  | some g => r.slot < 12 && !r.op.isLoss && s.ordHolds r.src r.slot g r.rid

/-- Requests that wait at the row service until their core has ended its updates: they hold no other request back (R195). -/
def ReqOp.parks : ReqOp → Bool
  | .stepTag _ | .tstep .. => true
  | _ => false

/-- The agent that performs accesses to a home, for the per-pair order of R167. -/
def Home.agent : Home → Nat
  | .scratch cn _ => cn
  | .chip cn _ => 2 ^ 16 + cn
  | .line _ cn _ _ => 2 ^ 16 + cn
  | .remote d cn _ => 2 ^ 32 + d * 2 ^ 17 + cn
  | .remoteMcast d => 2 ^ 33 + d
  | .mcast die dom _ => 2 ^ 18 + die * 64 + dom
  | .dev p _ => 2 ^ 19 + p
  | .owner c => 2 ^ 20 + c

/-- The homes at which a request is performed. -/
def Req.homes (r : Req) : List Home :=
  match r.op with
  | .move us _ => us.flatMap fun u => [u.1, u.2]
  | _ => [r.home]

/-- Whether a request goes to the agent of a home. -/
def Req.goesTo (r : Req) (h : Home) : Bool := r.homes.any fun k => k.agent == h.agent

/-- Whether a source core has a request under way to the agent of a home (R167, R219); an operation that still waits for its slot
counts, whichever strand has armed it (log 22). -/
def State.pendingTo (s : State) (cn : Nat) (h : Home) : Bool :=
  s.net.any fun r => r.src == cn && !r.op.parks && r.goesTo h

/-- The requests that are in flight or that a bundle is still to send in its later turns (R39). -/
def State.underway (s : State) : List Req :=
  s.net ++ s.cores.flatMap fun c => c.2.strands.toList.flatMap fun t => t.rest.flatMap (·.reqs)

/-- Whether a home lies on another device. -/
def Home.far (h : Home) : Bool :=
  match h with
  | .remote .. | .remoteMcast _ => true
  | _ => false

/-- Whether another device answers an access with the error of R278: a free choice, since the state of its cores is its own. -/
def State.farRefuses (s : State) (h : Home) : Bool × State :=
  if h.far then ((s.choose 2).1 == 1, (s.choose 2).2) else (false, s)

/-- n bytes at a home that is no device register, read as one access; the flag says poison (R285). -/
def State.readHome (s : State) (h : Home) (n eff : Nat) : (List Byte × Bool) × State :=
  match h with
  | .scratch cn off => ((s.mem.readN (scratchKey cn off) n, false), s)
  | .chip cn off => ((s.mem.readN (chipKey cn off) n, false), s)
  | .remote d cn off => ((s.mem.readN (remoteKey d cn off) n, false), s)
  | .line pa cn _ _ => s.readLine cn pa n eff
  | _ => ((List.replicate n 0, false), s)

/-- Writes bytes at a home that is no device register. -/
def State.writeHome (s : State) (h : Home) (bs : List Byte) (eff : Nat) : State :=
  match h with
  | .scratch cn off => { s with mem := s.mem.writeN (scratchKey cn off) bs }
  | .chip cn off => { s with mem := s.mem.writeN (chipKey cn off) bs }
  | .remote d cn off => { s with mem := s.mem.writeN (remoteKey d cn off) bs }
  | .line pa cn _ _ => s.writeLine cn pa bs eff
  | _ => s

/-- Ownership after a write of n bytes at a line home; other homes keep none (R169). -/
def State.ownAt (s : State) (part src slot : Nat) (writer : Option Nat) (h : Home) (n : Nat) (og : Option Nat := none) : State :=
  match h with
  | .line pa cn _ _ => s.takeWords part src slot writer cn pa n og
  | _ => s

/-- Writes of an engine's element that together replace a whole line clear its poison (R285). -/
def State.cleanLines (s : State) (hs : List Home) : State :=
  let units := hs.filterMap fun h => match h with | .line pa cn _ _ => some (pa, cn) | _ => none
  let whole := units.filter fun u => u.1 % 128 == 0 && (List.range 8).all fun k => units.any fun v => v.1 == u.1 + 16 * k && v.2 == u.2
  whole.foldl (fun t u =>
    match getKey t.l2 (lineKey u.2 u.1) with
    | some l =>
      let t1 := { t with l2 := putKey t.l2 (lineKey u.2 u.1) { l with poison := false } }
      if l.dirty = 0 then t1.setPoison u.1 false else t1
    | none => t.setPoison u.1 false) s

/-- Why a read or write through the page table does not take place now. -/
inductive Stop where
  /-- A cause with its address. -/
  | fault (cause : Nat) (addr : Word)
  /-- Earlier requests of the source to that home come first (R167), or the home holds the line (R165, R180). -/
  | order
  /-- The line is poisoned (R285): the partition stops. -/
  | poison (pa : Nat)
  deriving DecidableEq, Repr

/-- One unit of at most 16 bytes read through the page table (R176, R180), for an engine or a descriptor read; only
window 0 and memory homes. -/
def State.readUnit (s : State) (a : Access) (va : Word) (n : Nat) : Except Stop (List Byte) × State :=
  match s.resolve { a with rd := true, wr := false } va n with
  | (.error c, t) => (.error (.fault c va), t)
  | (.ok g, t) =>
    if g.win ≠ 0 || g.isMcast then (.error (.fault 0x07 va), t)
    else match g.home with
      | .dev _ _ => (.error (.fault 0x04 va), t)
      | h =>
        if t.pendingTo a.cn h || t.homeHeld h then (.error .order, t)
        else if (t.farRefuses h).1 then (.error (.fault 0x14 va), (t.farRefuses h).2)
        else
          let (r, u) := ((t.farRefuses h).2.countAt a.cn h).readHome h n (effPolicy g.pol 0)
          if r.2 then (.error (.poison g.pa), u) else (.ok r.1, u)

/-- n bytes read unit by unit, in ascending order; the first stop decides. -/
def State.readVa (s : State) (a : Access) (va : Word) : (units : Nat) → (n : Nat) → Except Stop (List Byte) × State
  | 0, _ => (.ok [], s)
  | k + 1, n =>
    if n = 0 then (.ok [], s)
    else
      let m := min n (16 - va.toNat % 16)
      match s.readUnit a va m with
      | (.error e, t) => (.error e, t)
      | (.ok bs, t) =>
        match t.readVa a (va + BitVec.ofNat 64 m) k (n - m) with
        | (.error e, u) => (.error e, u)
        | (.ok cs, u) => (.ok (bs ++ cs), u)

/-- n bytes through the page table. -/
def State.readBytes (s : State) (a : Access) (va : Word) (n : Nat) : Except Stop (List Byte) × State :=
  s.readVa a va (n / 16 + 2) n

/-- The home of one unit to be written (R176): a refusal of the page, the lock of the handler table, or the home; a multicast
address only where `mc` allows one (R131). -/
def State.unitTarget (s : State) (mc : Bool) (a : Access) (va : Word) (n : Nat) : Except Stop Target × State :=
  match s.resolve { a with rd := false, wr := true } va n with
  | (.error c, t) => (.error (.fault c va), t)
  | (.ok g, t) =>
    if g.win ≠ 0 || (g.isMcast && !mc) then (.error (.fault 0x07 va), t)
    else match g.home with
      | .dev _ _ => (.error (.fault 0x04 va), t)
      | h =>
        if t.lockRefuses a.sup h n then (.error (.fault 0x07 va), t)
        else if t.pendingTo a.cn h || t.homeHeld h then (.error .order, t)
        else (.ok g, t)

/-- The home of one unit that is no multicast address. -/
def State.writeTarget (s : State) (a : Access) (va : Word) (n : Nat) : Except Stop Target × State := s.unitTarget false a va n

/-- Writes one unit at a resolved target for an engine of a core (R176): no core owns the words afterwards (log 21). `slot` is the
ticket or strand for which it writes. -/
def State.writeUnit (s : State) (a : Access) (slot : Nat) (g : Target) (bs : List Byte) : State :=
  ((s.countAt a.cn g.home).writeHome g.home bs (effPolicy g.pol 0)).ownAt a.part a.cn slot none g.home bs.length

/-- Writes bytes unit by unit; a stop leaves the units before it written. -/
def State.writeVa (s : State) (a : Access) (slot : Nat) (va : Word) : (units : Nat) → List Byte → Except Stop State
  | 0, _ => .ok s
  | k + 1, bs =>
    if bs.isEmpty then .ok s
    else
      let m := min bs.length (16 - va.toNat % 16)
      match s.writeTarget a va m with
      | (.error e, _) => .error e
      | (.ok g, t) =>
        if (t.farRefuses g.home).1 then .error (.fault 0x14 va)
        else ((t.farRefuses g.home).2.writeUnit a slot g (bs.take m)).writeVa a slot (va + BitVec.ofNat 64 m) k (bs.drop m)

/-- Writes bytes through the page table, all or nothing. -/
def State.writeBytes (s : State) (a : Access) (slot : Nat) (va : Word) (bs : List Byte) : Except Stop State :=
  s.writeVa a slot va (bs.length / 16 + 2) bs

/-- The supervisor access of a partition from a core, as the device itself translates (R192, R221, R280). -/
def State.supAccess (s : State) (cn p : Nat) : Access :=
  { cn := cn, part := p, sup := true, sel := (s.part p).vsel.sel, rd := true, wr := true, ex := false }

/-! ### Accesses that the device itself makes with supervisor rights -/

/-- n bytes through a partition's page table with supervisor rights, from a core (R192, R221, R280); the home may hold them (R165).
The device's own accesses bring no line in. -/
def State.supRead (s : State) (cn p va : Nat) : (units n : Nat) → Except Nat (List Byte) × State
  | 0, _ => (.ok [], s)
  | k + 1, n =>
    if n = 0 then (.ok [], s)
    else
      let m := min n (16 - va % 16)
      match s.resolve { s.supAccess cn p with wr := false } (BitVec.ofNat 64 va) m with
      | (.error c, t) => (.error c, t)
      | (.ok g, t) =>
        if t.homeHeld g.home then (.error heldCause, t)
        else
        let (r, u) := t.readHome g.home m (effPolicy g.pol 1)
        if g.win ≠ 0 then (.error 0x07, t)
        else if r.2 then (.error (poisonCause g.pa), u)
        else match u.supRead cn p (va + m) k (n - m) with
          | (.error c, w) => (.error c, w)
          | (.ok bs, w) => (.ok (r.1 ++ bs), w)

/-- Writes bytes the same way; a translation fault on any unit gives its cause. -/
def State.supWrite (s : State) (cn p va : Nat) : (units : Nat) → List Byte → Except Nat State
  | 0, _ => .ok s
  | k + 1, bs =>
    if bs.isEmpty then .ok s
    else
      let m := min bs.length (16 - va % 16)
      match s.resolve { s.supAccess cn p with rd := false } (BitVec.ofNat 64 va) m with
      | (.error c, _) => .error c
      | (.ok g, t) =>
        if g.win ≠ 0 then .error 0x07
        else if t.homeHeld g.home then .error heldCause
        else ((t.writeHome g.home (bs.take m) (effPolicy g.pol 1)).ownAt p cn 12 none g.home m).supWrite cn p (va + m) k (bs.drop m)

/-- What the device does at homes that hold nothing back: its access is performed before those that wait there. -/
def State.unheld {α : Type} (s : State) (f : State → α × State) : α × State :=
  let (v, t) := f { s with net := [] }
  (v, { t with net := s.net ++ t.net })

end Sys2Proof.Machine
end

