-- ==== Sys2Proof/Machine/Elem.lean ====
section
/-! DEFINITION. The elementary functions of R423, correctly rounded, the exact comparisons of SAMPLE (R266) and the counter
based generator Philox (R78). Irrational values are computed as integers scaled by 2^256, with an error far below the
distance of any operand's result from a rounding boundary (log 13). -/
namespace Sys2Proof.Machine

/-- The scale of the fixed-point values. -/
def fxBits : Nat := 256

/-- ln 2 scaled by 2^fxBits: the sum of 1 / (k · 2^k). -/
def fxLn2 : Nat := (List.range 300).foldl (fun acc k => acc + 2 ^ (fxBits + 64) / ((k + 1) * 2 ^ (k + 1))) 0 / 2 ^ 64

/-- The product of 2^(2^−i) over the set fraction bits from 2^−1 on: `f` is the fraction scaled by 2^fxBits, `c` the
current root of two and `acc` the product, both scaled by 2^320. -/
def exp2Aux (f : Nat) : Nat → Nat → Nat → Nat
  | 0, _, acc => acc
  | i + 1, c, acc => exp2Aux f i (isqrt (c * 2 ^ 320)) (if bit f i then acc * c / 2 ^ 320 else acc)

/-- 2^f for a fraction f scaled by 2^fxBits, scaled by 2^320. -/
def fxExp2 (f : Nat) : Nat := exp2Aux f fxBits (isqrt (2 * 2 ^ 640)) (2 ^ 320)

/-- Fraction bits of log2 y for y in [1, 2) scaled by 2^640: repeated squaring. -/
def log2Aux : Nat → Nat → Nat → Nat
  | 0, _, acc => acc
  | n + 1, y, acc =>
    let z := y * y / 2 ^ 640
    if 2 ^ 641 ≤ z then log2Aux n (z / 2) (2 * acc + 1) else log2Aux n z (2 * acc)

/-- log2 of m · 2^e (m ≠ 0), scaled by 2^fxBits, rounded down. -/
def fxLog2 (m : Nat) (e : Int) : Int :=
  let l := log2N m
  (e + l) * (2 ^ fxBits : Nat) + (log2Aux fxBits (m * 2 ^ 640 / 2 ^ l) 0 : Nat)

/-- ln of m · 2^e, scaled by 2^fxBits. -/
def fxLn (m : Nat) (e : Int) : Int := fxLog2 m e * (fxLn2 : Nat) / (2 ^ fxBits : Nat)

/-- The Gumbel term −ln(−ln u) of u = (r + 0.5) · 2^−24 (R266), scaled by 2^fxBits. -/
def fxGumbel (r : Nat) : Int :=
  let l := (fxLn (2 * r + 1) (-25)).natAbs
  0 - fxLn l (-(fxBits : Int))

/-- Special results shared by the four functions (R423): the flag says NV. -/
def elemNan (t : Nat) (nv : Bool) : Nat × Nat := ((fmtOf t).nan, flagIf nv fNV)

/-- VRCP (R423). -/
def fRcp (t rm : Nat) (ftz : Bool) (a : Nat) : Nat × Nat :=
  match fIn t ftz a with
  | .nan s => elemNan t s
  | .inf n => (withSign t n 0, 0)
  | .fin n m e =>
    if m = 0 then ((infinityBits t .ieee n).1, fDZ)
    else
      let k : Nat := 200
      roundFin t rm ftz .ieee n (2 ^ k / m) (-e - k) (2 ^ k % m != 0)

/-- VRSQ (R423). -/
def fRsq (t rm : Nat) (ftz : Bool) (a : Nat) : Nat × Nat :=
  match fIn t ftz a with
  | .nan s => elemNan t s
  | .inf n => if n then elemNan t true else (withSign t false 0, 0)
  | .fin n m e =>
    if m = 0 then ((infinityBits t .ieee n).1, fDZ)
    else if n then elemNan t true
    else
      let odd := (e % 2).toNat
      let x := m * 2 ^ odd
      let q := isqrt (2 ^ 240 / x)
      roundFin t rm ftz .ieee false q (-(e - odd) / 2 - 120) (q * q * x != 2 ^ 240)

/-- VEXP2 (R423). -/
def fExp2 (t rm : Nat) (ftz : Bool) (a : Nat) : Nat × Nat :=
  match fIn t ftz a with
  | .nan s => elemNan t s
  | .inf n => if n then (withSign t false 0, 0) else infinityBits t .ieee false
  | .fin n m e =>
    if m = 0 then roundFin t rm ftz .ieee false 1 0 false
    else if 10 ≤ e + log2N m then
      roundFin t rm ftz .ieee false 1 (if n then -2000 else 2000) true
    else
      let x := scaledInt n m (e + fxBits) 0
      let i := x / (2 ^ fxBits : Nat)
      let f := (x % (2 ^ fxBits : Nat)).toNat
      if f = 0 then roundFin t rm ftz .ieee false 1 i false
      else roundFin t rm ftz .ieee false (fxExp2 f) (i - 320) true

/-- VLOG2 (R423). -/
def fLog2 (t rm : Nat) (ftz : Bool) (a : Nat) : Nat × Nat :=
  match fIn t ftz a with
  | .nan s => elemNan t s
  | .inf n => if n then elemNan t true else infinityBits t .ieee false
  | .fin n m e =>
    if m = 0 then ((infinityBits t .ieee true).1, fDZ)
    else if n then elemNan t true
    else
      let l := log2N m
      if m = 2 ^ l then fPut t rm ftz .ieee (FVal.ofInt (e + l))
      else
        let x := fxLog2 m e
        let neg := decide (x < 0)
        roundFin t rm ftz .ieee neg (if neg then (-x - 1).toNat else x.toNat) (-(fxBits : Int)) true

/-- One round of Philox: the four counter words and the two key words (R78). -/
def philoxRound (s : Nat × Nat × Nat × Nat × Nat × Nat) : Nat × Nat × Nat × Nat × Nat × Nat :=
  let (c0, c1, c2, c3, k0, k1) := s
  let m0 := 0xD2511F53 * c0
  let m1 := 0xCD9E8D57 * c2
  ((m1 / 2 ^ 32) ^^^ c1 ^^^ k0, m1 % 2 ^ 32, (m0 / 2 ^ 32) ^^^ c3 ^^^ k1, m0 % 2 ^ 32,
    (k0 + 0x9E3779B9) % 2 ^ 32, (k1 + 0xBB67AE85) % 2 ^ 32)

/-- Philox(key, ctr) (R78). -/
def philox (key ctr : Nat) : Nat :=
  let s0 := (fld ctr 0 32, fld ctr 32 32, fld ctr 64 32, fld ctr 96 32, fld key 0 32, fld key 32 32)
  let (c0, c1, c2, c3, _, _) := (List.range 10).foldl (fun s _ => philoxRound s) s0
  c3 * 2 ^ 96 + c2 * 2 ^ 64 + c1 * 2 ^ 32 + c0

end Sys2Proof.Machine
end

