-- ==== Sys2Proof/Machine/SysRegs.lean ====
section
/-! DEFINITION. What a write of a system register of a core or a partition does once its checks have passed (R5, R57, R426), with
the effects of R46, R56, R124, R233, R235, R276 and R279. Machine/System.lean holds the checks; a bundle of several words makes
these writes when its register writes become visible (R39). -/
namespace Sys2Proof.Machine

/-- A request to stop a partition (R279): merged into one in progress. -/
def State.gangStop (s : State) (p : Nat) : State :=
  s.modPart p fun x => if x.status = .running then { x with status := .stopping, stop := true } else x

/-- Changes the registers of the executing core. -/
def State.modRegs (s : State) (f : CoreRegs → CoreRegs) : State := s.modMyCore fun c => { c with regs := f c.regs }

/-- QCFG (R56, R235): bit 4 claims the ports for the executing strand, else its claim ends. -/
def State.writeQcfg (s : State) (v : Nat) : State := s.modRegs fun r => { r with
  claim := if bit v 4 then some s.cur.slot else if r.claim = some s.cur.slot then none else r.claim }

/-- Whether a strand's bundle is still to write a claim of the ports (R39). -/
def Strand.claims (t : Strand) : Bool :=
  (t.late ++ (match t.mid with | some m => m.late | none => [])).any fun l => match l with
    | .sys 0x010 v => bit v.toNat 4
    | _ => false

/-- Whether another strand of the executing core holds the ports, or its bundle is about to (R56). -/
def State.portsTaken (s : State) : Bool :=
  s.srcCore.regs.claim.any (· != s.cur.slot) || (List.range 12).any fun k => k != s.cur.slot && (s.myCore.strand k).claims

/-- QHCLR (R124): clears the histogram of a dense sequencer. -/
def State.clearHist (s : State) : State :=
  if isDense s.cur.cn then s.modMyCore fun c => { c with hist := .replicate 64 0 } else s

/-- TERR (R46): LOST is cleared by writing one, LOSTCNT is written. -/
def State.writeTerr (s : State) (v : Nat) : State :=
  s.modRegs fun r => { r with lost := r.lost && !bit v 0, lostCnt := fld v 16 16 }

/-- The bits of HTAB that are not reserved (R233). -/
def htabBits (v : Nat) : Word := BitVec.ofNat 64 (fld v 63 1 * 2 ^ 63 + fld v 0 16)
/-- The bits of WDOG that are not reserved (R276). -/
def wdogBits (v : Nat) : Word := BitVec.ofNat 64 (fld v 0 32)
/-- The bits of a home register that are not reserved (R139). -/
def hgBits (v : Nat) : Word := BitVec.ofNat 64 (fld v 61 3 * 2 ^ 61 + fld v 0 48)
/-- The bits of ALIST that are not reserved (R158). -/
def alistBits (v : Nat) : Word := BitVec.ofNat 64 (fld v 5 59 * 2 ^ 5)

/-- WDOG (R276). -/
def State.writeWdog (s : State) (v : Nat) : State := s.modRegs fun r => { r with wdog := wdogBits v }

/-- GSTOP (R279): a 1 in bit 0 starts a gang stop. -/
def State.writeGstop (s : State) (v : Nat) : State := if bit v 0 then s.gangStop (s.partNo s.cur.cn) else s

/-- Writes a system register of the executing core or its partition; a read-only one ignores the write (R5). -/
def State.writeCoreSys (s : State) (n : Nat) (v : Word) : State :=
  match n with
  | 0x00A => s.writeTerr v.toNat
  | 0x010 => s.writeQcfg v.toNat
  | 0x011 => s.modRegs fun r => { r with qhnd := v }
  | 0x013 => s.clearHist
  | 0x024 => s.modRegs fun r => { r with htab := htabBits v.toNat }
  | 0x025 => s.modRegs fun r => { r with fhnd := v }
  | 0x026 => s.writeWdog v.toNat
  | 0x027 => s.writeGstop v.toNat
  | 0x028 => s.modRegs fun r => { r with ctxbase := v }
  | 0x050 => s.modRegs fun r => { r with bdtab := v }
  | 0x051 => s.modRegs fun r => { r with sltab := v }
  | 0x062 => s.modPart (s.partNo s.cur.cn) fun p => { p with alist := alistBits v.toNat }
  | n => if 0x030 ≤ n && n < 0x040 then s.modRegs fun r => { r with perm := r.perm.setIfInBounds (n - 0x030) v } else s

/-- A write of the executing word: at once, or with the other writes of its bundle (R39). -/
def State.putSys (s : State) (n : Nat) (v : Word) : State :=
  if s.cur.multi then { s with cur := { s.cur with late := s.cur.late ++ [.sys n v] } } else s.writeCoreSys n v

end Sys2Proof.Machine
end

