-- ==== Sys2Proof/Machine/Operands.lean ====
section
/-! DEFINITION. Operand forms: the registers that each word reads and writes, its issue class and its place in a bundle
(R55, R60, R81, R96, R257, R265), the neighbour ports (R19, R56, R236, R237), vector lanes and predicates (R69), and the
alias windows (R116, R117). -/
namespace Sys2Proof.Machine

/-- The dense issue classes (R81). -/
inductive IssueClass where
  | s
  | v
  | e
  deriving DecidableEq, Repr

/-- What a word reads and writes. `pops` are the vector fields that are source operands; `sys` the system registers it
writes, with 0x1000 for the generator state (R265). -/
structure Uses where
  cls : IssueClass
  srcs : List Reg
  dsts : List Reg
  pops : List Nat
  sys : List Nat
  solo : Bool
  ctl : Bool
  deriving DecidableEq, Repr

/-- A scalar field as a register; s0 counts as none (R55). -/
def rx (r : BitVec 5) : List Reg := if r = 0 then [] else [.x r.toNat]
/-- A scalar field of four bits (R90). -/
def rx4 (r : BitVec 4) : List Reg := if r = 0 then [] else [.x r.toNat]
/-- A predicate field; 31 names no register (R54). -/
def rp (r : BitVec 5) : List Reg := if r = 31 then [] else [.p r.toNat]
/-- A vector field. -/
def rv (r : BitVec 4) : List Reg := [.v r.toNat]

/-- A scalar word. -/
def useS (srcs dsts : List Reg) : Uses :=
  { cls := .s, srcs := srcs, dsts := dsts, pops := [], sys := [], solo := false, ctl := false }
/-- A control transfer. -/
def useJ (srcs dsts : List Reg) : Uses := { useS srcs dsts with ctl := true }
/-- A solo scalar word. -/
def useX (srcs dsts : List Reg) : Uses := { useS srcs dsts with solo := true }
/-- An engine word. -/
def useE (srcs dsts : List Reg) : Uses := { useS srcs dsts with cls := .e }
/-- A vector word: its vector sources, other sources, destinations. -/
def useV (vs : List (BitVec 4)) (srcs dsts : List Reg) : Uses :=
  { useS (vs.flatMap rv ++ srcs) dsts with cls := .v, pops := vs.map (·.toNat) }

/-- A second register of a 16-byte pair, by size code (R83). -/
def pairReg (z : BitVec 3) (r k : Nat) : List Reg := if z = 7 then [.x (r + k)] else []

/-- The registers that an atomic's old value goes to; with d = 0 it is discarded (R324). -/
def oldUses (z : BitVec 3) (d : BitVec 5) : List Reg := if d = 0 then [] else rx d ++ pairReg z d.toNat 1

/-- The registers, class and bundle limits of an instruction word (R60, R81). -/
def usesOf : Instr → Uses
  | .acvt _ a _ _ => useE (rx a) []
  | .add _ d a b _ | .and _ d a b _ | .andn _ d a b _ | .mul _ d a b _ | .sub _ d a b _ | .or _ d a b _ | .xor _ d a b _
  | .shl _ d a b _ | .shr _ d a b _ | .shra _ d a b _ | .rot _ d a b _ => useS (rx a ++ rx b) (rx d)
  | .addImm _ d a _ | .andImm _ d a _ | .orImm _ d a _ | .xorImm _ d a _ => useS (rx a) (rx d)
  | .addpc _ d _ => useS [] (rx d)
  | .adopt _ d a => useS (rx a) (rx d)
  | .alloc _ d a => useS (rx a) (rx d)
  | .aload _ d a _ _ | .astore _ d a _ _ => useE (rx a) (rx d)
  | .amo _ d a z _ _ _ _ => useS (rx a ++ rx d ++ pairReg z d.toNat 1) (oldUses z d)
  | .azero _ a => useE (rx a) []
  | .bar _ a => useS (rx a) []
  | .barv _ d a b _ => useS (rx a ++ rp b) (rp d)
  | .br _ _ => useJ [] []
  | .brp _ p _ _ => useJ (rp p) []
  | .call _ _ => useJ [] [.x 1]
  | .cancel _ a => useS (rx a) []
  | .cas _ d a z _ _ _ =>
    useS (rx a ++ rx d ++ [.x (d.toNat + 1)] ++ pairReg z d.toNat 2 ++ pairReg z d.toNat 3) (oldUses z d)
  | .cflush _ a _ | .cinv _ a _ | .pref _ a _ => useS (rx a) []
  | .clz _ d a _ | .ctz _ d a _ | .popc _ d a _ => useS (rx a) (rx d)
  | .cmp _ d a b _ _ _ => useS (rx a ++ rx b) (rp d)
  | .cmpImm _ d a _ _ _ => useS (rx a) (rp d)
  | .coll _ d a _ _ _ => useE (rx a) (rx d)
  | .commit _ a | .decommit _ a => useS (rx a) []
  | .copy _ d a _ _ | .shuffle _ d a _ _ | .get _ d a _ _ | .put _ d a _ _ => useE (rx a) (rx d)
  | .ctrlv _ q a => useE (rx a) [.v (12 + q.toNat)]
  | .ctxsv | .ctxld => useX [] []
  | .decr a => { useX (rx a) [] with cls := .e }
  | .detach _ a => useS (rx a) []
  | .div _ d a b _ _ | .rem _ d a b _ _ | .min _ d a b _ _ | .max _ d a b _ _ | .mulh _ d a b _ _ =>
    useS (rx a ++ rx b) (rx d)
  | .exit => useX [] []
  | .extr _ d a _ _ _ => useS (rx a) (rx d)
  | .ins _ d a _ _ => useS (rx a ++ rx d) (rx d)
  | .fence _ _ _ _ _ => useS [] []
  | .free _ a b => useS (rx a ++ rx b) []
  | .gather _ d _ _ _ _ _ | .gatherp _ d _ _ _ _ _ | .scatter _ d _ _ _ _ | .scatadd _ d _ _ _ _ => useE [] (rx d)
  | .idle => useX [] []
  | .idsort _ d _ _ _ | .merge _ d _ _ _ => useE [] (rx d)
  | .join a => useX (rx a) []
  | .jr _ d a => useJ (rx a) (rx d)
  | .ld _ d a _ _ _ | .lda _ d a _ _ _ => useS (rx a) (rx d)
  | .ldv _ d a _ _ => useV [] (rx a) (rv d)
  | .lhi _ d _ _ => useS (rx d) (rx d)
  | .loop _ d _ => useJ (rx d) (rx d)
  | .mcmd _ d a b _ => useE (rx a ++ rx b) (rx d)
  | .mfetch _ d a _ | .mmul _ d a _ | .mmuls _ d a _ | .mrot _ d a _ => useE (rx a) (rx d)
  | .modeExposed | .modeScoreboard => useX [] []
  | .next d => { useX [] ([.x 1, .x 3, .x 4] ++ rx d) with cls := .e }
  | .nop => useS [] []
  | .shlImm _ d a _ _ | .shrImm _ d a _ _ | .shraImm _ d a _ _ | .rotImm _ d a _ _ => useS (rx a) (rx d)
  | .sel _ d a b _ p => useS (rx a ++ rx b ++ [.p p.toNat]) (rx d)
  | .plog _ d a b _ => useS (rp a ++ rp b) (rp d)
  | .pmov _ d a m => useS (rp a) (if m = 1 then rx d else rp d)
  | .pcnt _ d a => useS (rp a) (rx d)
  | .pset _ d a => useS (rx a) (rp d)
  | .qhist _ a p _ => useV [a] (rp p) []
  | .qscale _ d a _ => { useV [] (rx4 a) (rx4 d) with cls := .v }
  | .rand _ d => { useV [] [] (rv d) with sys := [0x1000] }
  | .rskip _ a => { useS (rx a) [] with sys := [0x1000] }
  | .rstrm _ a b => { useS (rx a ++ rx b) [] with sys := [0x1000] }
  | .rep _ a _ _ => useX (rx a) []
  | .rsys _ d _ => useS [] (rx d)
  | .wsys _ a n => { useS (rx a) [] with
      sys := n.toNat :: (if n.toNat = 2 ∨ n.toNat = 3 ∨ n.toNat = 4 then [0x1000] else []) }
  | .rte => useX [] []
  | .trap a => useX (rx a) []
  | .sample _ d a _ => { useE (rx a) (rx d) with sys := [0x1000] }
  | .send _ a b n => useE (rx a ++ (List.range n.toNat).flatMap fun i => rx (b + BitVec.ofNat 5 i)) []
  | .ship _ a b _ => useE (rx a ++ rx b) []
  | .slot _ _ => useS [] []
  | .spawn d a b => useX (rx d ++ rx a ++ rx b) (rx d)
  | .st _ d a _ _ _ | .stl _ d a _ _ _ => useS (rx a ++ rx d) []
  | .stv _ d a _ _ => useV [d] (rx a) []
  | .tdef _ _ a b => useS (rx a ++ rx b) []
  | .tacq _ _ | .trel _ _ | .trelFill _ _ => useS [] []
  | .tstat _ d _ => useS [] (rx d)
  | .task d a b => { useX (rx a ++ rx b) (rx d) with cls := .e }
  | .tbind _ _ a => useE (rx a) []
  | .tstep _ _ => useE [] []
  | .vpub _ a b => useE (rx a ++ rx b) []
  | .vswitch _ a => { useE (rx a) [] with sys := [0x005] }
  | .waitt _ a => useS (rx a) []
  | .waittNt _ d a | .tinfo _ d a _ | .tinfoResume _ d a => useS (rx a) (rx d)
  | .testt _ d a => useS (rx a) (rp d)
  | .tlbi _ a _ _ => useS (rx a) []
  | .vadd _ d a b p _ | .vsub _ d a b p _ | .vmul _ d a b p _ | .vmin _ d a b p _ | .vmax _ d a b p _
  | .vlogic _ d a b p _ | .vsh _ d a b p _ _ | .vsel _ d a b p _ => useV [a, b] (rp p) (rv d)
  | .vabs _ d a p _ | .vneg _ d a p _ | .vrcp _ d a p _ | .vrsq _ d a p _ | .vexp2 _ d a p _ | .vlog2 _ d a p _ =>
    useV [a] (rp p) (rv d)
  | .vcmp _ d a b p _ _ => useV [a, b] (rp p) [.p d.toNat]
  | .vshuf _ d a b => useV [a, b] [] (rv d)
  | .vbcast _ d a p _ => useV [] (rx4 a ++ rp p) (rv d)
  | .vext _ d a _ _ => useV [a] [] (rx4 d)
  | .vins _ d a _ _ => useV [] (rx4 a ++ rv d) (rv d)
  | .vcvt _ d a _ c _ p => useV (a :: if 2 ≤ c.toNat then [c] else []) (rp p) (rv d)
  | .vfma _ d a b c _ p => useV [d, a, b, c] (rp p) (rv d)
  | .vdot _ d a b _ p | .vmaci _ d a b _ _ p => useV [d, a, b] (rp p) (rv d)
  | .vred _ d a _ _ => useV [a] [] (rv d)
  | .yield => useX [] []
  | _ => useS [] []

/-- Whether a word names the divider (R257). -/
def dividesOf : Instr → Bool
  | .div .. | .rem .. => true
  | _ => false

/-! ### Neighbour ports -/

/-- The port that a vector field names for the executing strand: v12 to v15 while it holds the claim (R56). -/
def State.portOf (s : State) (r : Nat) : Option Nat :=
  if !isDense s.cur.cn && s.srcCore.regs.claim == some s.cur.slot && 12 ≤ r then some (r - 12) else none

/-- The queue a push through a port enters: the neighbour's queue of the opposite name (R19). -/
def opposite (port : Nat) : Nat := (port + 2) % 4

/-- An inbound queue of a core. -/
def Core.queue (c : Core) (port : Nat) : List QEntry := c.queues[port]?.getD []

/-- Appends an entry to the queue that a port of the executing core pushes into (R236). -/
def State.push (s : State) (port : Nat) (e : QEntry) : State :=
  match neighbour s.cur.cn port with
  | none => s
  | some n => s.modCore n fun c =>
    { c with queues := c.queues.setIfInBounds (opposite port) (c.queue (opposite port) ++ [e]) }

/-- A push of the executing word: at once, or with the other writes of its bundle (R39). -/
def State.putPort (s : State) (port : Nat) (e : QEntry) : State :=
  if s.cur.multi then { s with cur := { s.cur with late := s.cur.late ++ [.push port e] } } else s.push port e

/-- What a bundle has left until its writes become visible (R39), for the strand of the cursor. -/
def State.applyLate (s : State) : List Late → State
  | [] => s
  | .sys n v :: r => (s.writeCoreSys n v).applyLate r
  | .push port e :: r => (s.push port e).applyLate r

/-- Whether a push through a port would find the queue full (R236). -/
def State.pushFull (s : State) (port : Nat) : Bool :=
  match neighbour s.cur.cn port with
  | none => false
  | some n => 8 ≤ ((s.core n).queue (opposite port)).length

/-- Removes the head of a port's queue. -/
def State.pop (s : State) (port : Nat) : State :=
  s.modMyCore fun c => { c with queues := c.queues.setIfInBounds port (c.queue port).tail }

/-- Runs a word whose vector sources and destinations may be ports (R56, R236, R237): an absent port traps; a trap of the
word comes before a control value, and a control value before a wait. -/
def State.withPorts (s : State) (srcs dsts : List (BitVec 4)) (k : State → Res) : Res :=
  let ins := srcs.filterMap fun r => s.portOf r.toNat
  let outs := dsts.filterMap fun r => s.portOf r.toNat
  match (ins ++ outs).find? fun p => (neighbour s.cur.cn p).isNone with
  | some p => .trap 0x08 (BitVec.ofNat 64 (12 + p))
  | none =>
    let head (p : Nat) := (s.srcCore.queue p).head?
    let control := (List.range 4).find? fun p => ins.contains p && match head p with
      | some e => e.tag
      | none => false
    let waits := ins.any (fun p => (head p).isNone) || outs.any fun p => s.pushFull p
    match k (ins.foldl (fun t p => t.pop p) s) with
    | .trap c a => .trap c a
    | r =>
      match control with
      | some p => .control p
      | none => if waits then .wait else r

/-- A vector source: the head entry of a claimed port, or the register (R56, R61). -/
def State.v (s : State) (r : BitVec 4) : VWord :=
  match s.portOf r.toNat with
  | some p => (((s.srcCore.queue p).head?).getD { tag := false, val := 0 }).val
  | none => s.src.getV r.toNat

/-- The value that governed-off lanes of a destination keep: zero for a pushed entry (R417). -/
def State.vOld (s : State) (r : BitVec 4) : VWord :=
  match s.portOf r.toNat with
  | some _ => 0
  | none => s.src.getV r.toNat

/-- Writes a vector destination with a latency, or pushes it (R56). -/
def State.setV (s : State) (latency : Nat) (r : BitVec 4) (v : VWord) : State :=
  match s.portOf r.toNat with
  | some p => s.putPort p { tag := false, val := v }
  | none => s.setReg latency (.v r.toNat) v

/-! ### Lanes -/

/-- Lane i of width w. -/
def lane (v : VWord) (w i : Nat) : Nat := fld v.toNat (w * i) w

/-- A vector from its lanes of width w, lane 0 first. -/
def ofLanes (w : Nat) : List Nat → Nat
  | [] => 0
  | x :: xs => x % 2 ^ w + 2 ^ w * ofLanes w xs

/-- The lanes of a destination under a predicate: a governed-off lane keeps the old one (R69). -/
def mergeLanes (w n : Nat) (p : PWord) (old : VWord) (f : Nat → Nat) : VWord :=
  BitVec.ofNat 128 (ofLanes w ((List.range n).map fun i => if p.getLsbD i then f i else lane old w i))

/-- The OR of the flags of the governed lanes. -/
def laneFlags (n : Nat) (p : PWord) (f : Nat → Nat) : Nat :=
  (List.range n).foldl (fun acc i => if p.getLsbD i then acc ||| f i else acc) 0

/-! ### Alias windows -/

/-- The raw bytes that window w touches (R116). -/
def windowBytes (w : Nat) : Nat :=
  match w with
  | 0 => 16
  | 5 => 4
  | _ => 8

/-- The formats of a window: raw format, register format, lane count; none for the integer windows (R116). -/
def windowFmt (w : Nat) : Option (Nat × Nat × Nat) :=
  match w with
  | 1 => some (9, 8, 4)
  | 2 => some (10, 8, 4)
  | 3 => some (11, 9, 8)
  | 4 => some (12, 9, 8)
  | 5 => some (13, 9, 8)
  | _ => none

/-- What a window load puts into the register (R116, R117): it raises no flag. -/
def windowLoad (w : Nat) (bs : List Byte) : VWord :=
  let n := leNat bs
  match windowFmt w with
  | some (raw, reg, lanes) =>
    let rw := typeWidth raw
    BitVec.ofNat 128 (ofLanes (typeWidth reg) ((List.range lanes).map fun i =>
      (fPut reg 0 false .ieee (fDec raw (fld n (rw * i) rw))).1))
  | none =>
    if w = 6 then BitVec.ofNat 128 (ofLanes 16 ((List.range 8).map fun i => wrapN (signed (fld n (8 * i) 8) 8) 16))
    else if w = 7 then BitVec.ofNat 128 (ofLanes 16 ((List.range 8).map fun i => fld n (8 * i) 8))
    else BitVec.ofNat 128 n

/-- What a window store writes, and its flags (R116, R117). -/
def windowStore (w : Nat) (v : VWord) : List Byte × Nat :=
  let pack (lanes rw : Nat) (f : Nat → Nat × Nat) : List Byte × Nat :=
    let rs := (List.range lanes).map f
    (leBytes (lanes * rw / 8) (ofLanes rw (rs.map (·.1))), rs.foldl (fun acc r => acc ||| r.2) 0)
  match windowFmt w with
  | some (raw, reg, lanes) =>
    pack lanes (typeWidth raw) fun i => fPut raw 0 false (defaultPolicy raw) (fDec reg (lane v (typeWidth reg) i))
  | none =>
    if w = 6 || w = 7 then
      pack 8 8 fun i =>
        let c := clampInt (signed (lane v 16 i) 16) 8 (w == 6)
        (c.1, flagIf c.2 fISAT)
    else (leBytes 16 v.toNat, 0)

end Sys2Proof.Machine
end

