-- ==== Sys2Proof/Machine/Bundle.lean ====
section
/-! DEFINITION. Fetching a bundle (R58, R59, R329), the bundle rules (R60), the issue of a bundle of one or several words
(R39, R61, R96, R272), the pending writes of an exposed region (R257) and the passes of a REP (R258, R259). -/
namespace Sys2Proof.Machine

/-- What a fetch gives: the words of the bundle, a cause with its address, or a poisoned line (R285). -/
inductive Fetch where
  | words (ws : List IWord)
  | fault (cause : Nat) (faddr : Word)
  | poison (pa : Nat)
  deriving DecidableEq, Repr

/-- Where code at an address lies (R329): the untranslated scratchpad and homes that hold no memory raise 0x07; a line that its home
holds is waited for (R166). -/
def State.codeAt (s : State) (cn slot va : Nat) : Except Nat Target × State :=
  if va < 0x80000 then (.error 0x07, s)
  else
    let a : Access := { cn := cn, part := s.partNo cn, sup := (s.strand cn slot).sup, sel := s.selBit cn
                        rd := false, wr := false, ex := true }
    match s.resolve a (BitVec.ofNat 64 va) 4 with
    | (.error c, t) => (.error c, t)
    | (.ok g, t) =>
      match g.home with
      | .mcast .. | .remoteMcast _ | .dev .. => (.error 0x07, t)
      | h => if g.win ≠ 0 then (.error 0x07, t) else if t.homeHeld h then (.error heldCause, t) else (.ok g, t)

/-- The current byte at a home as instruction fetch reads it (log 20). -/
def State.codeByte (s : State) (h : Home) (i : Nat) : Byte :=
  match h with
  | .line pa _ _ _ => s.peek (pa + i)
  | .scratch cn off => s.mem.read (scratchKey cn (off + i))
  | .chip cn off => s.mem.read (chipKey cn (off + i))
  | .remote d cn off => s.mem.read (remoteKey d cn (off + i))
  | _ => 0

/-- A code word at a byte distance from a home. -/
def State.codeWord (s : State) (h : Home) (i : Nat) : IWord :=
  BitVec.ofNat 32 (leNat ((List.range 4).map fun j => s.codeByte h (i + j)))

/-- Whether the line of a home is poisoned (R285). -/
def State.codePoison (s : State) (h : Home) : Bool :=
  match h with
  | .line pa cn _ _ =>
    match getKey s.l2 (lineKey cn pa) with
    | some l => l.poison
    | none => s.poison.contains (s.poisonKey pa)
  | _ => false

/-- Bit B of a word (R58). -/
def wordB (w : IWord) : Bool := w.getLsbD 31

/-- The first bundle of a list of words, and whether it is complete: its last word has B = 0 (R59). -/
def firstBundle : List IWord → List IWord × Bool
  | [] => ([], false)
  | w :: r => if wordB w then (w :: (firstBundle r).1, (firstBundle r).2) else ([w], true)

/-- The home at a distance from a home. -/
def Home.back (h : Home) (n : Nat) : Home :=
  match h with
  | .line pa cn pol hf => .line (pa - n) cn pol hf
  | .scratch cn off => .scratch cn (off - n)
  | .chip cn off => .chip cn (off - n)
  | .remote d cn off => .remote d cn (off - n)
  | x => x

/-- Fetches the bundle at an address (R59, R60, R329). `jumped`: a control transfer leads there. -/
def State.fetchAt (s : State) (cn slot : Nat) (pc : Addr) (jumped : Bool) : Fetch × State :=
  let va := pc.toNat
  match s.codeAt cn slot va with
  | (.error c, t) => (.fault c (pc.setWidth 64), t)
  | (.ok g, t) =>
    if t.codePoison g.home then (.poison g.pa, t)
    else if jumped && va % 64 ≠ 0 && wordB (t.codeWord (g.home.back 4) 0) then (.fault 0x02 (pc.setWidth 64), t)
    else
      let room := min 3 (16 - va / 4 % 16)
      match firstBundle ((List.range room).map fun i => t.codeWord g.home (4 * i)) with
      | (ws, true) => (.words ws, t)
      | _ => (.fault 0x02 0, t)

/-! ### Bundle rules -/

/-- What a word reads and writes, bit B aside; a word that is no instruction uses nothing. -/
def wordUses (w : IWord) : Uses :=
  match decodeWord (w &&& 0x7FFFFFFF) with
  | .ok i => usesOf i
  | .error _ => useS [] []

/-- Whether two lists share an element. -/
def meets {α : Type} [BEq α] (a b : List α) : Bool := a.any fun x => b.contains x

/-- Whether two of the words write one register (R60). -/
def doubleWrite : List Uses → Bool
  | [] => false
  | u :: r => (r.any fun x => meets u.dsts x.dsts || meets u.sys x.sys) || doubleWrite r

/-- Whether a list holds a number twice. -/
def repeats : List Nat → Bool
  | [] => false
  | a :: r => r.contains a || repeats r

/-- The rules of R60 on the operations of a bundle; `ports` tells the vector fields that are claimed ports. -/
def bundleIllegal (us : List Uses) (ports : Nat → Bool) : Bool :=
  doubleWrite us || repeats ((us.flatMap (·.pops)).filter ports) || (us.dropLast.any (·.ctl)) ||
    (1 < us.length && us.any (·.solo))

/-- Whether a dense sequencer issues the bundle in one cycle (R96). -/
def singleCycle (us : List Uses) : Bool :=
  (us.filter fun u => u.cls = .s).length ≤ 1 && (us.filter fun u => u.cls = .v).length ≤ 1 &&
    (us.filter fun u => u.cls = .e).length ≤ 1

/-- The instruction that a word executes; a word that is none raises cause 0x01 (R79, R80, R92). -/
def instrOf (w : IWord) : Instr :=
  match decodeWord w with
  | .ok i => i
  | .error _ => .illegalInstruction w

/-- Whether a ticket is a COLL that has not been combined. A gang stop and CTXSV let one go that waits for other members (R213,
R214). -/
def Ticket.collective (t : Ticket) : Bool :=
  t.ending.isNone && match instrOf t.word with
  | .coll .. => true
  | _ => false

/-! ### Pending writes -/

/-- Whether a register of the bundle has a pending write that it waits for (R257): an interlocked one, or a counted one whose
turns have passed and whose value has not come. A counted write whose turns have not passed makes no strand unready: of R37's last
bullet and R257, which says that the old value is read, the model follows R257 (DESIGN CHOICE, log 73). -/
def Strand.blocked (t : Strand) (us : List Uses) : Bool :=
  t.pend.any fun p => (p.turns == none || p.turns == some 0) && us.any fun u => u.srcs.contains p.reg || u.dsts.contains p.reg

/-! ### Execution of a bundle -/

/-- The meaning of one word, as the dispatch gives it. -/
abbrev Exec := Instr → State → Host.Outcome State Fault Refusal

/-- Continues after a next state. -/
def andThen {α : Type} (o : Host.Outcome State Fault Refusal) (k : State → Host.Outcome α Fault Refusal) :
    Host.Outcome α Fault Refusal :=
  match o with
  | .next t => k t
  | .fault f => .fault f
  | .refused r => .refused r

/-- The cursor at the first word of a bundle. -/
def cursorAt (cn slot : Nat) (pc : Addr) (len : Nat) (multi spread : Bool) (src : Option Core) (part : Option Part) (since : Nat) :
    Cursor :=
  { cn := cn, slot := slot, pc := pc, bundle := pc, first := pc, len := len, multi := multi, spread := spread, src := src
    part := part, since := since, later := (0, 0), flags := 0, target := none, late := [], ending := .done }

/-- Executes the words of a bundle in order but for those left out, by their index, with how each ended and the next request number
after it. -/
def runBut (x : Exec) (pc : Addr) (out : Nat → Bool) (i : Nat) : List IWord → State → Host.Outcome (State × List (Ending × Nat)) Fault Refusal
  | [], s => .next (s, [])
  | w :: ws, s =>
    let word := if out i then .next (s.setEnding .done) else x (instrOf w) { s with cur := { s.cur with pc := pc } }
    andThen word fun t =>
      match runBut x (pc + 4) out (i + 1) ws t with
      | .next (u, es) => .next (u, (t.cur.ending, t.nextRid) :: es)
      | .fault f => .fault f
      | .refused r => .refused r

/-- Executes every word of a bundle in order. -/
def runWords (x : Exec) (pc : Addr) (ws : List IWord) (s : State) : Host.Outcome (State × List (Ending × Nat)) Fault Refusal :=
  runBut x pc (fun _ => false) 0 ws s

/-- The first trap in word order; a fatal one comes before every other (R272). -/
def firstTrap (es : List (Ending × Nat)) : Option (Nat × Word) :=
  let traps := es.filterMap fun e => match e.1 with
    | .trap c a => some (c, a)
    | _ => none
  match traps.find? fun e => e.1 % 2 ^ 8 == 0x13 with
  | some e => some e
  | none => traps.head?

/-- The lowest port with a control value (R237). -/
def firstControl (es : List (Ending × Nat)) : Option Nat :=
  es.foldl (fun acc e => match e.1 with
    | .control p => some (match acc with | some q => min p q | none => p)
    | _ => acc) none

/-- The indices of the words that wait. -/
def waitsIn (es : List (Ending × Nat)) : List Nat :=
  (List.range es.length).filter fun i => match es[i]? with
    | some (.waiting, _) | some (.begun, _) => true
    | _ => false

/-- The cause that follows the bundle, if a word has one (R186, R195). -/
def firstLate : List (Ending × Nat) → Option (Nat × Word)
  | [] => none
  | (.late c a, _) :: _ => some (c, a)
  | _ :: r => firstLate r

/-- The turns of a bundle's words (R39, R61): `ends` are the words and the next request numbers after each, the first word's being
numbered from `lo`; `out` are the words that are to be executed in their turns, with the tiles that each then finds. -/
def State.turnsOf (s : State) (lo : Nat) (out : Nat → Option (List (Nat × Tile))) (i : Nat) : List (IWord × Nat) → List Turn
  | [] => []
  | (w, hi) :: r =>
    { first := lo, last := hi, reqs := s.net.filter fun q => lo ≤ q.rid && q.rid < hi, word := if (out i).isSome then some i else none
      tiles := (out i).getD [], divides := dividesOf (instrOf w) } :: s.turnsOf hi out (i + 1) r

/-- Leaves turns to a strand: their requests are still to be sent (R39, R61). -/
def State.leaveTurns (s : State) (cn slot : Nat) (turns : List Turn) : State :=
  { s with net := s.net.filter fun r => !(turns.any fun t => t.first ≤ r.rid && r.rid < t.last) }.modStrand cn slot fun t =>
    { t with rest := turns }

/-- The result of a bundle: whether it took an issue turn, whether it completed, and the state. -/
structure Issued where
  took : Bool
  done : Bool
  st : State

/-- Applies what a bundle has left until its writes become visible, for a strand (R39). -/
def State.lateFor (s : State) (cn slot : Nat) (l : List Late) : State :=
  let u := { s with cur := { s.cur with cn := cn, slot := slot } }.applyLate l
  { u with cur := s.cur }

/-- Sends what is left of a bundle's effects: the later words' requests on their own turns where it issues over several, and the
writes that become visible together after the last (R39, R61). -/
def State.sendOut (s : State) (wide : Bool) (since : Nat) (ends : List (IWord × Nat)) (l : List Late) : State :=
  let u := if wide then s.leaveTurns s.cur.cn s.cur.slot (s.turnsOf since (fun _ => none) 0 ends).tail else s
  if (u.strand s.cur.cn s.cur.slot).rest.isEmpty then u.lateFor s.cur.cn s.cur.slot l
  else u.modMe fun t => { t with late := l }

/-- The first of the waiting words that would wait by itself without taking a turn (R37). -/
def waitsAlone (x : Exec) (s : State) (pc : Addr) (ws : List IWord) : List Nat → Host.Outcome (Option State) Fault Refusal
  | [] => .next none
  | i :: r =>
    match x (instrOf (ws.getD i 0)) { s with cur := { s.cur with pc := pc + BitVec.ofNat 56 (4 * i) } } with
    | .next u => if u.cur.ending = .waiting then .next (some u) else waitsAlone x s pc ws r
    | .fault f => .fault f
    | .refused q => .refused q

/-- Whether a word could not get the ticket slot that it needs (R37). -/
def State.slotless (s : State) (w : IWord) : Bool :=
  (wordUses w).cls == .e && !(wordUses w).dsts.isEmpty && s.myCore.tickets.toList.all fun t => t.live

/-- Takes back the tickets of words that have not had their turns, with their tiles (R61). -/
def State.unsend (s : State) (cn slot : Nat) : State :=
  (List.range 64).foldl (fun u n =>
    let c := u.core cn
    let t := c.ticket n
    if t.live && t.issuer == slot && c.unsent t then
      u.setCore cn ((c.giveBack t.dtile (t.stile.toList ++ t.stile2.toList) false).freeTicket n)
    else u) s

/-- The last turn of a bundle of which a word has waited: its writes become visible together (R39), an enabled flag abandons them
(R108), and the cause that follows the bundle is raised (R186, R195). -/
def State.endMid (s : State) (cn slot : Nat) (m : Mid) : Issued :=
  let pc := (s.strand cn slot).pc
  let base := { s with cur := { cursorAt cn slot pc m.words.length true m.wide none none m.since with target := m.target } }
  let u := base.commit (base.modMe fun t => { t.resume m with mid := none }) m.flags
  if u.cur.ending ≠ .done then { took := true, done := false, st := u }
  else
    let v := u.lateFor cn slot m.late
    { took := true, done := true, st := match m.after with
      | none => v
      | some (c, a) => v.takeException cn slot c a pc base.cur.after }

/-- The core as a word finds it that later words of its bundle have not changed: their tiles stand as they were (R61). -/
def Core.withTiles (c : Core) (ts : List (Nat × Tile)) : Core := ts.foldl (fun d t => d.setTile t.1 t.2) c

/-- The word of a turn is executed (R61, R172), with the registers that its bundle's words read and `rest` the turns that follow. Until
its wait ends the strand is not ready (R37). -/
def pendingTurn (x : Exec) (s : State) (cn slot i : Nat) (m : Mid) (tn : Turn) (rest : List Turn) : Host.Outcome Issued Fault Refusal :=
  let me := s.strand cn slot
  let c := s.core cn
  let at_ := me.pc + BitVec.ofNat 56 (4 * i)
  let begun := me.holds.any fun h => h.1 == at_ && h.2.begun
  let seen := c.withTiles tn.tiles
  let base := { s with cur := { cursorAt cn slot me.pc m.words.length true m.wide (some seen) (some { s.partFor cn with vsel := m.vsel })
    m.since with pc := at_, first := at_, later := (tn.last, m.upto), flags := m.flags, target := m.target, late := m.late } }
  let start := (base.setCore cn seen).modMe fun t => t.resume m
  let word := instrOf (m.words.getD i 0)
  let back (u : State) : State := u.modCore cn fun d => d.withTiles ((tn.tiles.filter fun t => d.tile t.1 == t.2).map fun t => (t.1, c.tile t.1))
  let run : Host.Outcome State Fault Refusal := match x word start with
    | .next u => if u.cur.ending = .waiting || begun || !m.wide then .next u else x word (start.modMe Strand.tick)
    | o => o
  match run with
  | .fault f => .fault f
  | .refused q => .refused q
  | .next u =>
    match u.cur.ending with
    | .waiting | .begun =>
      .next { took := u.cur.ending == .begun, done := false, st := (back u).modStrand cn slot fun t => t.pause me m }
    | .trap e a =>
      let b := base.unsend cn slot
      .next { took := true, done := false, st := (b.raise e a).setEnding (.trap e a) }
    | .control p => .next { took := true, done := false, st := (((base.unsend cn slot).modMe Strand.dropMid).takeControl p).setEnding (.control p) }
    | e =>
      let after := match e with
        | .late k a => some (k, a)
        | _ => m.after
      let m1 := { m with flags := u.cur.flags, target := u.cur.target, late := u.cur.late, after := after }
      let v := ((back u).setEnding .begun).modStrand cn slot fun t =>
        { t with rest := rest, holds := t.holds.filter fun h => h.1 != at_ }.pause me m1
      if rest.isEmpty then .next (v.endMid cn slot ((v.strand cn slot).mid.getD m1)) else .next { took := true, done := false, st := v }

/-- A bundle in which the words `w` wait for what the words before them do (R61, R172; log 7): all other words take effect in its first
turn, and each of these is executed in its own. -/
def splitBundle (x : Exec) (s base : State) (cn slot : Nat) (pc : Addr) (ws : List IWord) (wide : Bool) (w : List Nat) :
    Host.Outcome Issued Fault Refusal :=
  let me := s.strand cn slot
  let start := base.modMe Strand.tick
  match runBut x pc w.contains 0 ws start with
  | .fault f => .fault f
  | .refused r => .refused r
  | .next (v, es) =>
    if w.any fun i => v.slotless (ws.getD i 0) then .next { took := false, done := false, st := base.setEnding .waiting }
    else if flagsTrap me.fctl.toNat v.cur.flags then
      let a := BitVec.ofNat 64 v.cur.flags
      .next { took := true, done := false, st := (base.raise 0x0D a).setEnding (.trap 0x0D a) }
    else
      let m : Mid := { words := ws, since := s.nextRid, upto := v.nextRid, wide := wide, vsel := (s.partFor cn).vsel, flags := v.cur.flags
                       target := v.cur.target, late := v.cur.late, after := firstLate es, x := me.x, v := me.v, p := me.p, fctl := me.fctl
                       status := me.flags, rkey := me.rkey, sid := me.sid, draw := me.draw, arm := me.arm }
      let changed (i : Nat) : List (Nat × Tile) := match runBut x pc w.contains 0 (ws.take (i + 1)) start with
        | .next (u, _) => ((List.range 32).filter fun k => (u.core cn).tile k != (v.core cn).tile k).map fun k => (k, (u.core cn).tile k)
        | _ => []
      let turns := v.turnsOf s.nextRid (fun i => if w.contains i then some (changed i) else none) 0 (ws.zip (es.map (·.2)))
      let left := if !wide then turns.filter (·.word.isSome) else if w.contains 0 then turns else turns.tail
      let u := ((v.modStrand cn slot fun q =>
        ({ q with holds := q.holds.filter fun h => w.any fun i => h.1 == pc + BitVec.ofNat 56 (4 * i) }).pause me m).leaveTurns cn slot
          left).setEnding .begun
      let first : Issued := { took := true, done := false, st := u }
      match left with
      | tn :: rest =>
        if wide && !w.contains 0 then .next first
        else match tn.word with
          | none => .next first
          | some i => match pendingTurn x u cn slot i ((u.strand cn slot).mid.getD m) tn rest with
            | .next o => .next { o with took := true }
            | o => o
      | [] => .next first

/-- A bundle of several words, or one with counted pending writes (R61): every word's outcome first, then the first trap, a control
value, a wait of one word by itself, a wait for what its own words do, or all effects together. -/
def bundleMany (x : Exec) (s : State) (cn slot : Nat) (pc : Addr) (ws : List IWord) (us : List Uses) :
    Host.Outcome Issued Fault Refusal :=
  let wide := !(ws.length = 1 || (isDense cn && singleCycle us))
  let base := { s with cur := cursorAt cn slot pc ws.length true wide (some (s.core cn)) (some (s.partFor cn)) s.nextRid }
  match runWords x pc ws (base.modMe Strand.tick) with
  | .fault f => .fault f
  | .refused r => .refused r
  | .next (t, es) =>
    match firstTrap es, firstControl es, waitsIn es with
    | some (c, a), _, _ => .next { took := true, done := false, st := (base.raise c a).setEnding (.trap c a) }
    | none, some p, _ => .next { took := true, done := false, st := (base.takeControl p).setEnding (.control p) }
    | none, none, [] =>
      let u := base.commit { t with cur := { t.cur with ending := .done } } t.cur.flags
      if u.cur.ending ≠ .done then .next { took := true, done := false, st := u }
      else
        let v := u.sendOut wide s.nextRid (ws.zip (es.map (·.2))) t.cur.late
        .next { took := true, done := (v.strand cn slot).rest.isEmpty, st := match firstLate es with
          | none => v
          | some (c, a) => v.takeException cn slot c a pc base.cur.after }
    | none, none, w =>
      match waitsAlone x base pc ws w with
      | .fault f => .fault f
      | .refused r => .refused r
      | .next (some u) => .next { took := false, done := false, st := u }
      | .next none => splitBundle x s base cn slot pc ws wide w

/-- A bundle of one word (R61). -/
def bundleOne (x : Exec) (s : State) (cn slot : Nat) (pc : Addr) (w : IWord) : Host.Outcome Issued Fault Refusal :=
  match x (instrOf w) { s with cur := cursorAt cn slot pc 1 false false none none s.nextRid } with
  | .fault f => .fault f
  | .refused r => .refused r
  | .next t => .next { took := t.cur.ending != .waiting, done := t.cur.ending == .done, st := t }

/-- Whether the strand has counted pending writes. -/
def Strand.counted (t : Strand) : Bool := t.pend.any fun p => p.turns.isSome

/-- Whether a MODE waits at a core, so that no e-class operation issues (R380). -/
def Core.modeWaits (c : Core) : Bool := c.strands.toList.any fun t => t.holds.any fun h => h.2 == .mode

/-- Executes the words of a bundle for a strand: the rules of R60, the interlock of R257, then the words. -/
def runBundle (x : Exec) (s : State) (cn slot : Nat) (pc : Addr) (ws : List IWord) : Host.Outcome Issued Fault Refusal :=
  let us := ws.map wordUses
  let t := s.strand cn slot
  let ports (r : Nat) : Bool := !isDense cn && (s.core cn).regs.claim == some slot && 12 ≤ r
  if bundleIllegal us ports then
    .next { took := true, done := false, st := s.takeException cn slot 0x02 0 pc pc }
  else if t.blocked us || (us.any (·.cls = .e) && (s.core cn).modeWaits) then .next { took := false, done := false, st := s }
  else match ws with
    | [w] => if t.counted then bundleMany x s cn slot pc ws us else bundleOne x s cn slot pc w
    | _ => bundleMany x s cn slot pc ws us

/-! ### Repetition (R258, R259) -/

/-- A captured word on a pass: each field that the mask selects is stepped. -/
def repWord (w : IWord) (mask : Nat) (stride : Int) (pass : Nat) : IWord :=
  let step (n lo m : Nat) : Nat :=
    if bit mask m then n - fld n lo 5 * 2 ^ lo + wrapN (fld n lo 5 + pass * stride) 5 * 2 ^ lo else n
  BitVec.ofNat 32 (step (step (step (step w.toNat 20 0) 15 1) 10 2) 5 3)

/-- The words of a pass. -/
def Rep.passWords (r : Rep) (pass : Nat) : List IWord :=
  r.words.map fun w => repWord w r.mask (signed r.stride 5) pass

/-- The registers that the passes read or write; the stepped fields repeat after 32 passes. -/
def Rep.regs (r : Rep) : List Reg :=
  (List.range (min 32 (r.pass + r.remaining))).flatMap fun j =>
    (r.passWords j).flatMap fun w => (wordUses w).srcs ++ (wordUses w).dsts

/-- The system registers that a word reads or writes, with 0x1000 for the generator state (R57, R265): vector words take FCTL
and raise flags, engine words take FCTL and VSEL, those that end at their issue raise
flags, and QHIST counts in the histogram that QHCLR clears. -/
def sysOf (w : IWord) : List Nat :=
  let u := wordUses w
  let own := match instrOf w with
    | .rsys _ _ n => [n.toNat]
    | .qhist .. => [0x013]
    | .qscale .. | .merge .. | .sample .. | .acvt .. | .tstep .. => [0x000, 0x001]
    | _ => []
  let cls := match u.cls with
    | .s => []
    | .v => [0x000, 0x001]
    | .e => [0x000, 0x005]
  own ++ cls ++ u.sys ++ (if u.sys.contains 0x1000 then [0x002, 0x003, 0x004] else [])

/-- Whether a word ends or starts what a REP rests on, so that it does not run beside the passes: the rule's bundle follows the
body (log 74). -/
def settlesPlace : Instr → Bool
  | .exit | .rep .. | .rte | .modeExposed | .modeScoreboard | .ctxsv | .ctxld => true
  | _ => false

/-- The address after the body. -/
def Rep.after (r : Rep) : Addr := r.base + BitVec.ofNat 56 (4 + 4 * r.words.length)

/-- The strand after a body bundle of n words: the next bundle, the next pass, or the end of the passes. -/
def Rep.advance (r : Rep) (n : Nat) : Option Rep × Addr :=
  if r.pos + n < r.words.length then
    (some { r with pos := r.pos + n }, r.base + BitVec.ofNat 56 (4 + 4 * (r.pos + n)))
  else if r.remaining ≤ 1 then (none, r.after + BitVec.ofNat 56 (4 * r.ahead))
  else (some { r with pos := 0, pass := r.pass + 1, remaining := r.remaining - 1 }, r.base + 4)

/-- The words at an address, each translated by itself, while they can be fetched. -/
def State.readCode (s : State) (cn slot : Nat) (pc : Addr) : Nat → Except Nat (List IWord)
  | 0 => .ok []
  | n + 1 =>
    match (s.codeAt cn slot pc.toNat).1 with
    | .error c => .error c
    | .ok g =>
      if s.codePoison g.home then .error (poisonCause g.pa)
      else match s.readCode cn slot (pc + 4) n with
      | .error c => .error c
      | .ok r => .ok (s.codeWord g.home 0 :: r)

/-- A restored repetition (R281, R283): the REP is the nearest one before the PC whose body holds the PC; its words are
captured again. A line that its home holds is waited for, and a poisoned one stops the partition (R166, R285). -/
def State.reRep (s : State) (cn slot : Nat) (r : Rep) : Option (Except Nat Rep) :=
  let pc := (s.strand cn slot).pc
  let stop (c : Nat) : Option (Except Nat Rep) := if c = heldCause || c % 2 ^ 8 = 0x13 then some (.error c) else none
  (List.range 16).findSome? fun k =>
    let base := pc - BitVec.ofNat 56 (4 * (k + 1))
    match s.readCode cn slot base 1 with
    | .error c => stop c
    | .ok [w] =>
      match decodeWord w with
      | .ok (.rep m _ st n) =>
        if k < n.toNat + 1 then
          match s.readCode cn slot (base + 4) (n.toNat + 1) with
          | .ok ws => some (.ok { r with base := base, words := ws, stride := st.toNat, mask := m.toNat, pos := k })
          | .error c => stop c
        else none
      | _ => none
    | _ => none

/-- The bundle after the body that may run ahead (R259): only s-class operations, no control transfer, no general or system
register that a pass reads or writes, and within the four bits that R283 saves. One that would trap or wait does not run ahead.
It reads the registers as the pass does, `c0` being the core before the pass. -/
def runAhead (x : Exec) (s : State) (cn slot : Nat) (c0 : Core) : Host.Outcome State Fault Refusal :=
  match (s.strand cn slot).rep with
  | none => .next s
  | some r =>
    let pc := r.after + BitVec.ofNat 56 (4 * r.ahead)
    match s.fetchAt cn slot pc false with
    | (.words ws, _) =>
      let us := ws.map wordUses
      let fits := us.all (fun u => u.cls = .s && !u.ctl && !meets (u.srcs ++ u.dsts) r.regs) &&
        ws.all (fun w => !settlesPlace (instrOf w) && !meets (sysOf w) (r.words.flatMap sysOf))
      if !fits || 15 < r.ahead + ws.length || bundleIllegal us (fun _ => false) || (c0.strand slot).blocked us ||
          (s.strand cn slot).mid.isSome || (s.strand cn slot).susp.isSome then .next s
      else
        let base := { s with cur := cursorAt cn slot pc ws.length true false (some c0) (some (s.partFor cn)) s.nextRid }
        match runWords x pc ws base with
        | .fault f => .fault f
        | .refused q => .refused q
        | .next (t, es) =>
          if es.any (fun e => e.1 ≠ .done) || flagsTrap (s.strand cn slot).fctl.toNat t.cur.flags then .next s
          else .next ((t.modMe fun u => { u with
            flags := u.flags ||| BitVec.ofNat 64 t.cur.flags
            rep := some { r with ahead := r.ahead + ws.length }
            pc := (s.strand cn slot).pc }).lateFor cn slot t.cur.late)
    | _ => .next s

/-- Whether a bundle that did not complete is passed over when its strand resumes (R271, R272). -/
def Ending.passes : Ending → Bool
  | .trap c _ => c == 0x0D || c == 0x10 || c == 0x17
  | .late _ _ => true
  | _ => false

/-- The words of the body bundle that issues next, and whether they are a whole bundle. -/
def Rep.bundle (r : Rep) : List IWord × Bool := firstBundle (((r.passWords r.pass).drop r.pos).take 3)

/-- A turn of a body bundle: what runs ahead beside it (R259), and the next bundle once it has ended. `c0` is the core before it. -/
def passTurn (x : Exec) (cn slot : Nat) (c0 : Core) (o : Issued) : Host.Outcome Issued Fault Refusal :=
  let passes := o.done || (o.took && o.st.cur.ending.passes)
  let ahead := if o.took && (o.done || !passes) && o.st.cur.ending matches .done | .begun then runAhead x o.st cn slot c0 else .next o.st
  match ahead with
  | .fault f => .fault f
  | .refused q => .refused q
  | .next t =>
    match (t.strand cn slot).rep with
    | none => .next { o with st := t }
    | some r =>
      if !passes then .next { o with st := t }
      else
        let (r', pc') := r.advance r.bundle.1.length
        .next { o with st := t.modStrand cn slot fun u => { u with rep := r', pc := pc' } }

/-- The first turn of a body bundle of a repetition. -/
def runPass (x : Exec) (s : State) (cn slot : Nat) (r : Rep) : Host.Outcome Issued Fault Refusal :=
  let pc := (s.strand cn slot).pc
  let (ws, whole) := r.bundle
  if !whole || 64 < pc.toNat % 64 + 4 * ws.length then
    .next { took := true, done := false, st := (s.takeException cn slot 0x02 0 pc pc).setEnding .waiting }
  else match runBundle x s cn slot pc ws with
    | .next o => passTurn x cn slot (s.core cn) o
    | o => o

/-! ### Issue of a strand -/

/-- Whether an exchange phase is open at a core of a partition (R223). -/
def State.phaseOpen (s : State) (p : Nat) : Bool := (s.part p).cores.any fun cn => (s.core cn).phase.isSome

/-- Whether a strand waits in the middle of a bundle for what only another core or an engine does; a gang stop lets it execute
the bundle again (R280; log 7). -/
def Strand.midWaits (t : Strand) : Bool := t.mid.isSome && t.holds.any fun h => !h.2.mid

/-- Whether the core of a strand may issue its next bundle (R37, R277, R280): a running partition, or a stopping one that
has a phase open, an operation to finish, or a bundle half issued. -/
def State.mayIssue (s : State) (cn slot : Nat) : Bool :=
  let t := s.strand cn slot
  match s.partOf? cn with
  | none => false
  | some p =>
    match (s.part p).status with
    | .running => true
    | .stopping => s.phaseOpen p || (!t.rest.isEmpty && !t.midWaits) || t.holds.any fun h => h.2.mid
    | _ => false

/-- A turn of a strand passes, also in the middle of a bundle (R257). -/
def Strand.turn (t : Strand) : Strand :=
  match t.mid with
  | none => t.tick
  | some m => ((t.resume m).tick).pause t m

/-- A turn of a bundle that only sends (R39): the requests of its word leave, and after the last its other writes become visible. -/
def State.nextTurn (s : State) (cn slot : Nat) (tn : Turn) (rest : List Turn) : State :=
  let again := tn.reqs.map fun r => if r.due.isSome && r.depart.isNone then { r with due := some (s.cycle + 1) } else r
  let u := { s with net := s.net ++ again }.modStrand cn slot fun t =>
    { t.turn with rest := rest, divFree := if tn.divides then s.cycle + 24 else t.divFree }
  if rest.isEmpty then (u.modStrand cn slot fun t => { t with late := [] }).lateFor cn slot (s.strand cn slot).late else u

/-- The next turn of a bundle (R39): its word is executed or its requests leave, and with the last turn the bundle ends. -/
def laterTurn (x : Exec) (s : State) (cn slot : Nat) (tn : Turn) (rest : List Turn) : Host.Outcome Issued Fault Refusal :=
  let t := s.strand cn slot
  match tn.word, t.mid with
  | some i, some m => pendingTurn x s cn slot i m tn rest
  | _, _ =>
    let u := (s.nextTurn cn slot tn rest).setEnding .begun
    .next (match rest.isEmpty, (u.strand cn slot).mid with
      | true, some m => u.endMid cn slot m
      | d, _ => { took := true, done := d, st := u })

/-- Whether the strand's next step takes no issue turn: the word that it waits in has issued, and only its end is left (R37, R39,
R326). -/
def Strand.freeTurn (t : Strand) : Bool :=
  match t.rest, t.mid with
  | tn :: _, some m => match tn.word with
    | none => false
    | some i => !m.wide || t.holds.any fun h => h.1 == t.pc + BitVec.ofNat 56 (4 * i) && h.2.begun
  | _ :: _, none => false
  | [], _ => t.holds.any fun h => h.2.begun

/-- Keeps the words of a bundle that has begun to wait, so that they are not fetched again (R52). -/
def State.keepWords (s : State) (cn slot : Nat) (ws : List IWord) : State :=
  s.modStrand cn slot fun t => { t with fetched := if t.holds.isEmpty then [] else ws }

/-- The strand tries to issue (R37, R39, R61): the outcome says whether it took an issue cycle. -/
def attempt (x : Exec) (s : State) (cn slot : Nat) : Host.Outcome (Bool × State) Fault Refusal :=
  let t := s.strand cn slot
  let finish (o : Host.Outcome Issued Fault Refusal) : Host.Outcome (Bool × State) Fault Refusal :=
    match o with
    | .next r => .next (r.took && !t.freeTurn, r.st)
    | .fault f => .fault f
    | .refused q => .refused q
  if t.refusalDue then .next (false, s.deliverRefusal cn slot)
  else if !t.live || t.yielded || !s.mayIssue cn slot then .next (false, s)
  else match t.rest with
  | tn :: rest =>
    match laterTurn x s cn slot tn rest with
    | .next o => finish (if t.rep.isSome then passTurn x cn slot (s.core cn) o else .next o)
    | o => finish o
  | [] =>
  if t.susp.isSome || t.await.isSome then .next (false, s)
  else match t.rep with
    | some r =>
      if r.words.isEmpty then
        match s.reRep cn slot r with
        | some (.ok r') => .next (false, s.modStrand cn slot fun u => { u with rep := some r' })
        | some (.error c) => .next (false, if c = heldCause then s else s.fatalStop (s.partNo cn) 0x13 cn slot t.pc (c / 2 ^ 8))
        | none => .next (false, s.modStrand cn slot fun u => { u with rep := none })
      else finish (runPass x s cn slot r)
    | none =>
      let bundle (u : State) (ws : List IWord) : Host.Outcome (Bool × State) Fault Refusal :=
        match runBundle x u cn slot t.pc ws with
        | .next r => finish (.next { r with st := r.st.keepWords cn slot ws })
        | o => finish o
      if !t.holds.isEmpty && !t.fetched.isEmpty then bundle s t.fetched
      else match s.fetchAt cn slot t.pc t.jumped with
      | (.fault c a, u) => if c = heldCause then .next (false, u) else .next (true, u.takeException cn slot c a t.pc t.pc)
      | (.poison pa, u) => .next (true, u.fatalStop (s.partNo cn) 0x13 cn slot t.pc pa)
      | (.words ws, u) => bundle u ws

/-- The strands of a core whose waits have ended go on, without an issue turn (R37, R326). -/
def freeTurns (x : Exec) (cn : Nat) : List Nat → State → Host.Outcome State Fault Refusal
  | [], s => .next s
  | slot :: r, s =>
    if !(s.strand cn slot).freeTurn then freeTurns x cn r s
    else match attempt x s cn slot with
      | .next (_, t) => freeTurns x cn r t
      | .fault f => .fault f
      | .refused q => .refused q

/-- Whether a live strand is ready but for the choice of R36; used by the watchdog (R276). -/
def Strand.counts (t : Strand) : Bool := t.live && t.susp.isNone

/-- The order in which R36 tries the slots: the handler first when it may, then the slots after P, then the handler. -/
def Core.order (c : Core) : List Nat :=
  let rest := (List.range 11).map fun i => (c.lastP + 1 + i) % 11
  if c.handlerLast then rest ++ [11] else 11 :: rest

/-- Marks that a slot has issued. -/
def State.markIssued (s : State) (cn slot : Nat) : State :=
  let s1 := s.modCore cn fun c => { c with
    lastP := if slot = 11 then c.lastP else slot
    handlerLast := slot == 11 }
  let s2 := s1.modStrand cn slot fun t => { t with notReady := 0 }
  { s2 with issued := insertNat cn s2.issued }

/-- A core tries the slots in order until one issues (R36). -/
def issueIn (x : Exec) (cn : Nat) : List Nat → State → Host.Outcome (Bool × State) Fault Refusal
  | [], s => .next (false, s)
  | slot :: r, s =>
    match attempt x s cn slot with
    | .fault f => .fault f
    | .refused q => .refused q
    | .next (true, t) => .next (true, t.markIssued cn slot)
    | .next (false, t) => issueIn x cn r t

end Sys2Proof.Machine
end

