-- ==== Sys2Proof/Machine/Scalar.lean ====
section
/-! DEFINITION. The scalar arithmetic of MAJ 0x01 to 0x0A and the predicate words of MAJ 0x0B (R315 to R317, R336, R337,
R350, R352, R363, R371, R373, R382, R385 to R387, R427). No word here raises a flag. -/
namespace Sys2Proof.Machine

/-- The outcome of a word. -/
abbrev Out := Host.Outcome State Fault Refusal

/-- The result of R315: all 64 bits, or under .w the low 32 bits sign-extended. -/
def narrow (w : BitVec 1) (v : Word) : Word := if w = 1 then sextW v.toNat 32 else v

/-- An operand of 64 bits, or under .w of 32 bits sign-extended, zero-extended under .n (R337, R373, R382). -/
def operand (n w : BitVec 1) (v : Word) : Word :=
  if w = 1 then (if n = 1 then zextW v.toNat 32 else sextW v.toNat 32) else v

/-- Writes a scalar result and completes without flags. -/
def State.writeX (s : State) (latency : Nat) (d : BitVec 5) (v : Word) : Out := s.settle (.done (s.setX latency d v) 0)

/-- Writes a predicate result and completes without flags. -/
def State.writeP (s : State) (d : Nat) (v : PWord) : Out := s.settle (.done (s.setP 1 d v) 0)

/-- ADD (R316). -/
def execAdd (d a b : BitVec 5) (w : BitVec 1) (s : State) : Out := s.writeX 1 d (narrow w (s.x a + s.x b))
/-- ADD with an immediate (R316). -/
def execAddImm (d a : BitVec 5) (i : BitVec 15) (s : State) : Out := s.writeX 1 d (s.x a + sextW i.toNat 15)
/-- SUB (R385). -/
def execSub (d a b : BitVec 5) (w : BitVec 1) (s : State) : Out := s.writeX 1 d (narrow w (s.x a - s.x b))
/-- AND (R316). -/
def execAnd (d a b : BitVec 5) (w : BitVec 1) (s : State) : Out := s.writeX 1 d (narrow w (s.x a &&& s.x b))
/-- AND with an immediate (R316). -/
def execAndImm (d a : BitVec 5) (i : BitVec 15) (s : State) : Out := s.writeX 1 d (s.x a &&& zextW i.toNat 15)
/-- ANDN (R316). -/
def execAndn (d a b : BitVec 5) (w : BitVec 1) (s : State) : Out := s.writeX 1 d (narrow w (s.x a &&& ~~~s.x b))
/-- OR (R385). -/
def execOr (d a b : BitVec 5) (w : BitVec 1) (s : State) : Out := s.writeX 1 d (narrow w (s.x a ||| s.x b))
/-- OR with an immediate (R385). -/
def execOrImm (d a : BitVec 5) (i : BitVec 15) (s : State) : Out := s.writeX 1 d (s.x a ||| zextW i.toNat 15)
/-- XOR (R427). -/
def execXor (d a b : BitVec 5) (w : BitVec 1) (s : State) : Out := s.writeX 1 d (narrow w (s.x a ^^^ s.x b))
/-- XOR with an immediate (R427). -/
def execXorImm (d a : BitVec 5) (i : BitVec 15) (s : State) : Out := s.writeX 1 d (s.x a ^^^ zextW i.toNat 15)

/-- ADDPC (R317). -/
def execAddpc (d : BitVec 5) (i : BitVec 15) (s : State) : Out :=
  s.writeX 1 d (((s.cur.pc.setWidth 64 + sextW i.toNat 15 * 4).setWidth 56).setWidth 64)

/-! ### Shifts and rotates (R385) -/

/-- The four shift operations. -/
inductive ShiftOp where
  | shl
  | shr
  | shra
  | rot
  deriving DecidableEq, Repr

/-- The shift of a w-bit number by a count below w. -/
def shiftBits (o : ShiftOp) (w x c : Nat) : Nat :=
  match o with
  | .shl => x * 2 ^ c % 2 ^ w
  | .shr => x / 2 ^ c
  | .shra => wrapN (signed x w / (2 ^ c : Nat)) w
  | .rot => x / 2 ^ c + x % 2 ^ c * 2 ^ (w - c) % 2 ^ w

/-- The result of a shift: over 64 bits with count bits [5:0], or under .w over 32 bits with count bits [4:0]. -/
def shiftResult (o : ShiftOp) (w : BitVec 1) (x : Word) (c : Nat) : Word :=
  if w = 1 then sextW (shiftBits o 32 (x.toNat % 2 ^ 32) (c % 32)) 32
  else BitVec.ofNat 64 (shiftBits o 64 x.toNat (c % 64))

/-- A shift by a register count. -/
def State.shiftReg (s : State) (o : ShiftOp) (d a b : BitVec 5) (w : BitVec 1) : Out :=
  s.writeX 1 d (shiftResult o w (s.x a) (s.x b).toNat)

/-- A shift by an immediate count. -/
def State.shiftImm (s : State) (o : ShiftOp) (d a : BitVec 5) (w : BitVec 1) (c : BitVec 6) : Out :=
  s.writeX 1 d (shiftResult o w (s.x a) c.toNat)

/-- SHL (R385). -/
def execShl (d a b : BitVec 5) (w : BitVec 1) (s : State) : Out := s.shiftReg .shl d a b w
/-- SHR (R385). -/
def execShr (d a b : BitVec 5) (w : BitVec 1) (s : State) : Out := s.shiftReg .shr d a b w
/-- SHRA (R385). -/
def execShra (d a b : BitVec 5) (w : BitVec 1) (s : State) : Out := s.shiftReg .shra d a b w
/-- ROT (R385). -/
def execRot (d a b : BitVec 5) (w : BitVec 1) (s : State) : Out := s.shiftReg .rot d a b w
/-- SHL by an immediate (R385). -/
def execShlImm (d a : BitVec 5) (w : BitVec 1) (c : BitVec 6) (s : State) : Out := s.shiftImm .shl d a w c
/-- SHR by an immediate (R385). -/
def execShrImm (d a : BitVec 5) (w : BitVec 1) (c : BitVec 6) (s : State) : Out := s.shiftImm .shr d a w c
/-- SHRA by an immediate (R385). -/
def execShraImm (d a : BitVec 5) (w : BitVec 1) (c : BitVec 6) (s : State) : Out := s.shiftImm .shra d a w c
/-- ROT by an immediate (R385). -/
def execRotImm (d a : BitVec 5) (w : BitVec 1) (c : BitVec 6) (s : State) : Out := s.shiftImm .rot d a w c

/-! ### Counts and selection -/

/-- Leading zeros of the low n bits (R336). -/
def leadingZeros (x n : Nat) : Nat := if x % 2 ^ n = 0 then n else n - 1 - log2N (x % 2 ^ n)

/-- Trailing zeros of the low n bits (R336). -/
def trailingZeros (x n : Nat) : Nat := (findBelow n fun i => bit x i).getD n

/-- The operand width: 32 bits under .w. -/
def widthOf (w : BitVec 1) : Nat := if w = 1 then 32 else 64

/-- CLZ (R336). -/
def execClz (d a : BitVec 5) (w : BitVec 1) (s : State) : Out :=
  s.writeX 1 d (BitVec.ofNat 64 (leadingZeros (s.x a).toNat (widthOf w)))
/-- CTZ (R336). -/
def execCtz (d a : BitVec 5) (w : BitVec 1) (s : State) : Out :=
  s.writeX 1 d (BitVec.ofNat 64 (trailingZeros (s.x a).toNat (widthOf w)))
/-- POPC (R385). -/
def execPopc (d a : BitVec 5) (w : BitVec 1) (s : State) : Out :=
  s.writeX 1 d (BitVec.ofNat 64 (popCount (s.x a).toNat (widthOf w)))
/-- SEL (R385). -/
def execSel (d a b : BitVec 5) (w : BitVec 1) (p : BitVec 3) (s : State) : Out :=
  s.writeX 1 d (narrow w (if (s.p p.toNat).getLsbD 0 then s.x a else s.x b))

/-- Order of two words, signed or unsigned under .n. -/
def wordLt (n : BitVec 1) (x y : Word) : Bool := if n = 1 then x.toNat < y.toNat else x.toInt < y.toInt

/-- MIN (R373). -/
def execMin (d a b : BitVec 5) (n w : BitVec 1) (s : State) : Out :=
  let x := operand n w (s.x a)
  let y := operand n w (s.x b)
  s.writeX 1 d (narrow w (if wordLt n y x then y else x))
/-- MAX (R373). -/
def execMax (d a b : BitVec 5) (n w : BitVec 1) (s : State) : Out :=
  let x := operand n w (s.x a)
  let y := operand n w (s.x b)
  s.writeX 1 d (narrow w (if wordLt n x y then y else x))

/-- The condition cc of R65 on two words. -/
def condition (cc : Nat) (n : BitVec 1) (x y : Word) : Bool :=
  match cc with
  | 0 => x == y
  | 1 => x != y
  | 2 => wordLt n x y
  | 3 => !wordLt n x y
  | 4 => !wordLt n y x
  | _ => wordLt n y x

/-- A predicate of 16 equal bits. -/
def allBits (c : Bool) : PWord := if c then 0xFFFF else 0

/-- CMP (R337). -/
def execCmp (d a b : BitVec 5) (n w : BitVec 1) (c : BitVec 3) (s : State) : Out :=
  s.writeP d.toNat (allBits (condition c.toNat n (operand n w (s.x a)) (operand n w (s.x b))))
/-- CMP with an immediate (R337). -/
def execCmpImm (d a : BitVec 5) (c : BitVec 3) (n : BitVec 1) (i : BitVec 11) (s : State) : Out :=
  s.writeP d.toNat (allBits (condition c.toNat n (s.x a) (sextW i.toNat 11)))

/-! ### Products and quotients -/

/-- MUL (R382). -/
def execMul (d a b : BitVec 5) (w : BitVec 1) (s : State) : Out := s.writeX 3 d (narrow w (s.x a * s.x b))

/-- The exact product of two operands, signed or unsigned. -/
def fullProduct (n : BitVec 1) (x y : Word) : Int :=
  if n = 1 then (x.toNat : Int) * y.toNat else x.toInt * y.toInt

/-- MULH (R382). -/
def execMulh (d a b : BitVec 5) (n w : BitVec 1) (s : State) : Out :=
  let p := fullProduct n (operand n w (s.x a)) (operand n w (s.x b))
  s.writeX 3 d (if w = 1 then sextW (wrapN (p / (2 ^ 32 : Nat)) 32) 32
    else BitVec.ofNat 64 (wrapN (p / (2 ^ 64 : Nat)) 64))

/-- The quotient and remainder of R350 and R386 over W bits. -/
def divide (W : Nat) (n : BitVec 1) (x y : Nat) : Nat × Nat :=
  let xs : Int := if n = 1 then (x : Int) else signed x W
  let ys : Int := if n = 1 then (y : Int) else signed y W
  if y = 0 then (2 ^ W - 1, x)
  else if n = 0 ∧ x = 2 ^ (W - 1) ∧ y = 2 ^ W - 1 then (x, 0)
  else (wrapN (Int.tdiv xs ys) W, wrapN (Int.tmod xs ys) W)

/-- A division, which waits while the strand's divider is occupied and then occupies it for 24 cycles (R257). -/
def State.divideX (s : State) (d a b : BitVec 5) (n w : BitVec 1) (f : Nat × Nat → Nat) : Out :=
  if s.me.divFree ≠ 0 then s.settle .wait
  else
    let W := widthOf w
    let r := f (divide W n ((s.x a).toNat % 2 ^ W) ((s.x b).toNat % 2 ^ W))
    let t := s.modMe fun u => { u with divFree := s.cycle + 24 + s.cur.turn }
    s.settle (.done (t.setX 24 d (narrow w (BitVec.ofNat 64 r))) 0)

/-- DIV (R350). -/
def execDiv (d a b : BitVec 5) (n w : BitVec 1) (s : State) : Out := s.divideX d a b n w (·.1)
/-- REM (R386). -/
def execRem (d a b : BitVec 5) (n w : BitVec 1) (s : State) : Out := s.divideX d a b n w (·.2)

/-! ### Bit fields and constants -/

/-- EXTR (R352). -/
def execExtr (d a : BitVec 5) (e : BitVec 1) (l p : BitVec 6) (s : State) : Out :=
  let len := l.toNat + 1
  let f := fld (s.x a).toNat p.toNat len
  s.writeX 1 d (if e = 1 then sextW f len else BitVec.ofNat 64 f)
/-- INS (R363). -/
def execIns (d a : BitVec 5) (l p : BitVec 6) (s : State) : Out :=
  let len := l.toNat + 1
  let x := (s.x d).toNat
  s.writeX 1 d (BitVec.ofNat 64 (x - fld x p.toNat len * 2 ^ p.toNat + (s.x a).toNat % 2 ^ len * 2 ^ p.toNat))
/-- LHI (R66, R371). -/
def execLhi (d : BitVec 5) (h : BitVec 2) (i : BitVec 18) (s : State) : Out :=
  let lo := 14 + 16 * h.toNat
  let x := (s.x d).toNat
  s.writeX 1 d (BitVec.ofNat 64 (x - fld x lo 18 * 2 ^ lo + i.toNat * 2 ^ lo))

/-! ### Predicates (R387) -/

/-- The truth-table function of PLOG. -/
def plogBits (t : BitVec 4) (x y : PWord) : PWord :=
  BitVec.ofNat 16 (ofLanes 1 ((List.range 16).map fun i =>
    b2n (t.getLsbD (2 * b2n (x.getLsbD i) + b2n (y.getLsbD i)))))

/-- PLOG (R387). -/
def execPlog (d a b : BitVec 5) (t : BitVec 4) (s : State) : Out :=
  s.writeP d.toNat (plogBits t (s.p a.toNat) (s.p b.toNat))
/-- PMOV (R387): m = 1 writes a scalar. -/
def execPmov (d a : BitVec 5) (m : BitVec 1) (s : State) : Out :=
  if m = 1 then s.writeX 1 d ((s.p a.toNat).setWidth 64) else s.writeP d.toNat (s.p a.toNat)
/-- PCNT (R387). -/
def execPcnt (d a : BitVec 5) (s : State) : Out := s.writeX 1 d (BitVec.ofNat 64 (popCount (s.p a.toNat).toNat 16))
/-- PSET (R387). -/
def execPset (d a : BitVec 5) (s : State) : Out := s.writeP d.toNat ((s.x a).setWidth 16)

/-- NOP (R384). -/
def execNop (s : State) : Out := s.settle (.done s 0)

end Sys2Proof.Machine
end

