-- ==== Sys2Proof/Machine/Control.lean ====
section
/-! DEFINITION. Control transfers of MAJ 0x0C to 0x0F (R67, R328, R330, R365, R372), and the REP of MAJ 0x36 (R258, R393). -/
namespace Sys2Proof.Machine

/-- Control goes to an address after the bundle. -/
def State.jump (s : State) (a : Addr) : State := { s with cur := { s.cur with target := some a } }

/-- An address some words from the executing word. -/
def State.ahead (s : State) (words : Word) : Addr := s.cur.pc + (words * 4).setWidth 56

/-- The link: the address after the executing word. -/
def State.link (s : State) : Word := (s.cur.pc + 4).setWidth 64

/-- BR (R328). -/
def execBr (i : BitVec 25) (s : State) : Out := s.settle (.done (s.jump (s.ahead (sextW i.toNat 25))) 0)

/-- BRP (R328). -/
def execBrp (p : BitVec 5) (e : BitVec 1) (i : BitVec 19) (s : State) : Out :=
  s.settle (.done (if (s.p p.toNat).getLsbD 0 = (e == 1) then s.jump (s.ahead (sextW i.toNat 19)) else s) 0)

/-- CALL (R330). -/
def execCall (i : BitVec 25) (s : State) : Out :=
  s.settle (.done ((s.setX 1 1 s.link).jump (s.ahead (sextW i.toNat 25))) 0)

/-- JR (R365). -/
def execJr (d a : BitVec 5) (s : State) : Out :=
  let t := s.x a
  s.settle (
    if t.toNat % 4 ≠ 0 then .trap 0x04 t
    else if 2 ^ 56 ≤ t.toNat then .trap 0x07 t
    else .done ((s.setX 1 d s.link).jump (t.setWidth 56)) 0)

/-- LOOP (R372). -/
def execLoop (d : BitVec 5) (o : BitVec 10) (s : State) : Out :=
  let n := s.x d - 1
  let t := s.setX 1 d n
  s.settle (.done (if n = 0 then t else t.jump (s.ahead (sextW o.toNat 10))) 0)

/-- Whether a captured word is v-class or e-class, no solo word and no control transfer, by its MAJ and selector (R80, R81,
R258). -/
def repeatable (w : IWord) : Bool :=
  let n := w.toNat
  let fnA := fld n 0 5
  let fnV := fld n 0 4
  let b := fld n 10 5
  match fld n 25 6 with
  | 0x12 | 0x13 | 0x19 | 0x1A | 0x1C | 0x1D | 0x21 | 0x22 | 0x23 | 0x24 | 0x29 | 0x2E | 0x31 | 0x32 | 0x33 => true
  | 0x18 => fnV ≤ 6
  | 0x1B => fnV ≤ 3
  | 0x1E => fld n 5 4 ≤ 13
  | 0x1F => fnV ≤ 4
  | 0x20 => fnA = 0
  | 0x25 => fnA ≤ 3
  | 0x26 | 0x2A | 0x30 => b ≤ 1
  | 0x27 => fnA ≤ 1
  | 0x34 => b ≤ 3
  | 0x35 => fnV ≤ 1
  | _ => false

/-- The n words from an address, or the cause and the address of the word that cannot be fetched. -/
def State.capture (s : State) (pc : Addr) : Nat → Except (Nat × Addr) (List IWord)
  | 0 => .ok []
  | n + 1 =>
    match (s.codeAt s.cur.cn s.cur.slot pc.toNat).1 with
    | .error c => .error (c, pc)
    | .ok g =>
      if s.codePoison g.home then .error (poisonCause g.pa, pc)
      else match s.capture (pc + 4) n with
      | .error e => .error e
      | .ok r => .ok (s.codeWord g.home 0 :: r)

/-- REP (R258, R393): the words are captured and checked, then their passes begin; a count of 0 skips the body. -/
def execRep (m a st : BitVec 5) (n : BitVec 4) (s : State) : Out :=
  let count := (s.x a).toNat
  let body := s.cur.pc + 4
  s.settle (s.matrix (
    if 2 ^ 16 ≤ count then .trap 0x07 s.openAddr
    else match s.capture body (n.toNat + 1) with
      | .error (c, pc) => .trap c (pc.setWidth 64)
      | .ok ws =>
        if !ws.all repeatable then .trap 0x01 0
        else if wordB (ws.getLastD 0) then .trap 0x02 0
        else if count = 0 then .done (s.jump (body + BitVec.ofNat 56 (4 * (n.toNat + 1)))) 0
        else
          let r : Rep := { base := s.cur.pc, words := ws, stride := st.toNat, mask := m.toNat, pass := 0
                           remaining := count, pos := 0, ahead := 0 }
          .done ((s.modMe fun t => { t with rep := some r }).jump body) 0))

end Sys2Proof.Machine
end

