-- ==== Sys2Proof/Machine/Context.lean ====
section
/-! DEFINITION. The context area of a core (R282, R283): packing and unpacking of every field, and the system register
words of R57. -/
namespace Sys2Proof.Machine

/-- The bits of CAUSE that are not reserved (R270). -/
def causeBits (v : Nat) : Nat := fld v 0 15

/-- A byte list filled with zeros up to n bytes. -/
def padTo (n : Nat) (bs : List Byte) : List Byte := bs ++ List.replicate (n - bs.length) 0

/-- TERR (R46). -/
def CoreRegs.terr (r : CoreRegs) : Nat := b2n r.lost + r.lostCnt * 2 ^ 16

/-- QCFG (R235). -/
def CoreRegs.qcfg (r : CoreRegs) : Nat :=
  match r.claim with
  | none => 0
  | some h => 16 + h

/-- PHASE in a cycle (R224): shown from B until the phase closes; OPEN and SLOTNO from slot 0 on. -/
def Core.phaseWord (c : Core) (cycle : Nat) : Nat :=
  match c.phase with
  | none => 0
  | some p =>
    let isOpen := p.b + 16 ≤ cycle
    p.f * 2 ^ 10 + p.dom * 2 ^ 2 + b2n isOpen + (if isOpen then (cycle - p.b - 16) * 2 ^ 14 else 0)

/-- VSEL (R199). -/
def Vsel.word (v : Vsel) : Nat := v.sel * 2 ^ 48 + b2n v.follow * 2 ^ 16 + v.ver

/-- GSTOP (R279). -/
def Part.gstop (p : Part) : Nat := b2n p.stop + 2 * b2n p.saved

/-- The word of a core or partition register (R57); none for a number absent from the table, and for the strand
registers. -/
def State.regWord (s : State) (c : Core) (p : Part) (cn k : Nat) : Option Nat :=
  let r := c.regs
  match k with
  | 0x005 => some p.vsel.word
  | 0x007 => some cn
  | 0x008 => some (if (s.partOf? cn).isSome then s.partNo cn + p.key * 2 ^ 16 else 0)
  | 0x009 => some (s.cycle % 2 ^ 64)
  | 0x00A => some r.terr
  | 0x010 => some r.qcfg
  | 0x011 => some r.qhnd.toNat
  | 0x012 => some r.qcode.toNat
  | 0x013 => some 0
  | 0x020 => some r.cause.toNat
  | 0x021 => some r.faddr.toNat
  | 0x022 => some r.fpc.toNat
  | 0x023 => some r.fslot.toNat
  | 0x024 => some r.htab.toNat
  | 0x025 => some r.fhnd.toNat
  | 0x026 => some r.wdog.toNat
  | 0x027 => some p.gstop
  | 0x028 => some r.ctxbase.toNat
  | 0x050 => some r.bdtab.toNat
  | 0x051 => some r.sltab.toNat
  | 0x052 => some (c.phaseWord s.cycle)
  | 0x060 => some p.ptroot.toNat
  | 0x061 => some p.fpool.toNat
  | 0x062 => some p.alist.toNat
  | 0x070 => some (b2n r.exposed)
  | k =>
    if 0x030 ≤ k && k < 0x040 then some (r.perm[k - 0x030]?.getD 0).toNat
    else if 0x040 ≤ k && k ≤ 0x046 then some (p.hg[k - 0x040]?.getD 0).toNat
    else none

/-- The word of a core or partition register as it stands. -/
def State.coreReg (s : State) (cn k : Nat) : Option Nat := s.regWord (s.core cn) (s.partFor cn) cn k

/-- A pending write in the private layout of its block (R283): class, index, turns, value. -/
def Pend.pack (p : Pend) : List Byte :=
  let v := (p.val.getD 0).toNat
  let turns := (p.turns.getD 0)
  match p.reg with
  | .x i => leBytes 1 1 ++ leBytes 1 i ++ leBytes 1 turns ++ leBytes 8 v
  | .v i => leBytes 1 2 ++ leBytes 1 i ++ leBytes 1 turns ++ leBytes 16 v
  | .p i => leBytes 1 3 ++ leBytes 1 i ++ leBytes 1 turns ++ leBytes 2 v

/-- Reads the entries of a pending-writes block. -/
def unpackPend : (fuel : Nat) → List Byte → List Pend
  | 0, _ => []
  | n + 1, bs =>
    let mk (r : Reg) (len : Nat) : List Pend :=
      let p : Pend := { reg := r, rid := 0, val := some (BitVec.ofNat 128 (leAt bs 3 len)), turns := some (leAt bs 2 1) }
      p :: unpackPend n (bs.drop (3 + len))
    match leAt bs 0 1 with
    | 1 => mk (.x (leAt bs 1 1)) 8
    | 2 => mk (.v (leAt bs 1 1)) 16
    | 3 => mk (.p (leAt bs 1 1)) 2
    | _ => []

/-- The mark of a pending-writes block: core and slot, so that a block of another slot is told apart (R283). -/
def pendMark (cn slot : Nat) : Nat := 0x80000000 + cn * 16 + slot

/-- A strand record (R283). -/
def Strand.pack (t : Strand) (cn slot : Nat) : List Byte :=
  let x := (List.range 32).flatMap fun i => leBytes 8 (t.getX i).toNat
  let v := (List.range 16).flatMap fun i => leBytes 16 (t.getV i).toNat
  let p := (List.range 24).flatMap fun i => leBytes 2 (t.getP i).toNat
  let halted := t.holds.any fun h => h.2 == .restart || h.2 == .implicit true
  let bits := b2n t.live + 2 * b2n t.sup + 4 * b2n t.susp.isSome + 8 * b2n halted + 16 * b2n t.inEntry
  let rep := match t.rep with
    | none => 0
    | some r => r.pass + r.remaining * 2 ^ 16 + r.ahead * 2 ^ 32
  let pend := if t.pend.isEmpty then [] else padTo 380 (t.pend.flatMap Pend.pack) ++ leBytes 4 (pendMark cn slot)
  padTo 1024 (padTo 0x240 (x ++ v ++ p) ++ leBytes 8 t.pc.toNat ++ leBytes 8 t.fctl.toNat ++ leBytes 8 t.flags.toNat ++
    leBytes 8 t.rkey.toNat ++ leBytes 8 t.sid.toNat ++ leBytes 8 t.draw.toNat ++ leBytes 8 bits ++ leBytes 8 rep ++
    padTo 384 pend)

/-- A word of a byte list. -/
def wordAt (bs : List Byte) (off : Nat) : Word := BitVec.ofNat 64 (leAt bs off 8)

/-- A strand from its record and its fault entry record (R281 to R283); its next fetch is judged as a branch target, which only a
PC inside a bundle tells apart (R60): LIVE = 0 empties the slot; a pending-writes block
that is no save of this slot leaves every register a free value. -/
def Strand.unpack (bs fr : List Byte) (cn slot : Nat) : Strand :=
  let w := leAt bs 0x270 8
  let base : Strand := { Strand.empty with
    fctl := wordAt bs 0x248 &&& fctlMask
    flags := wordAt bs 0x250 &&& flagsMask
    rkey := wordAt bs 0x258
    sid := wordAt bs 0x260
    draw := wordAt bs 0x268 }
  let savedX (i : Nat) : Word := if i = 0 then 0 else wordAt bs (8 * i)
  let savedV (i : Nat) : VWord := BitVec.ofNat 128 (leAt bs (0x100 + 16 * i) 16)
  let savedP (i : Nat) : PWord := BitVec.ofNat 16 (leAt bs (0x200 + 2 * i) 2)
  if !bit w 0 then { base with
    x := Vector.ofFn fun i => savedX i.val
    v := Vector.ofFn fun i => savedV i.val
    p := Vector.ofFn fun i => savedP i.val }
  else
    let block := slice bs 0x280 384
    let none? := block.all (· == 0)
    let mine := leAt block 380 4 == pendMark cn slot
    let rw := leAt bs 0x278 8
    let good := none? || mine
    let free (i : Nat) : BitVec 128 := Config.restoredReg (slot * 128 + i)
    let rep : Option Rep :=
      if fld rw 16 16 = 0 then none
      else some { base := 0, words := [], stride := 0, mask := 0, pass := fld rw 0 16, remaining := fld rw 16 16, pos := 0
                  ahead := fld rw 32 4 }
    let susp : Option FaultRec :=
      if bit w 2 then some { cause := causeBits (leAt fr 0 8), faddr := wordAt fr 8, fpc := BitVec.ofNat 56 (leAt fr 16 8) } else none
    { base with
      live := true
      sup := bit w 1
      inEntry := bit w 4
      pc := BitVec.ofNat 56 (leAt bs 0x240 8 / 4 * 4)
      x := Vector.ofFn fun i => if good || i.val = 0 then savedX i.val else (free i.val).setWidth 64
      v := Vector.ofFn fun i => if good then savedV i.val else free (32 + i.val)
      p := Vector.ofFn fun i => if good then savedP i.val else (free (64 + i.val)).setWidth 16
      susp := susp
      jumped := true
      pend := if mine then unpackPend 64 (block.take 380) else []
      rep := rep }

/-- A tile descriptor word (R143). -/
def Tile.word (t : Tile) : Nat :=
  let st := match t.st with | .empty => 0 | .filling => 1 | .ready => 2 | .draining => 3
  t.readers * 2 ^ 58 + st * 2 ^ 48 + t.bytes * 2 ^ 24 + t.base

/-- A tile from its descriptor word. -/
def Tile.ofWord (w : Nat) : Tile :=
  { readers := fld w 58 6, st := match fld w 48 2 with | 0 => .empty | 1 => .filling | 2 => .ready | _ => .draining
    bytes := fld w 24 17, base := fld w 0 16 }

/-- The code of a ticket state (R205). -/
def TicketState.code : TicketState → Nat
  | .pending => 0
  | .done => 1
  | .faulted => 2
  | .cancelled => 3

/-- A ticket's status word (R205; log 84). -/
def Ticket.status (t : Ticket) : Nat :=
  let o (x : Option Nat) (v n : Nat) := match x with | none => 0 | some k => 2 ^ v + k * 2 ^ n
  if !t.live then t.gen * 2 ^ 54
  else t.gen * 2 ^ 54 + t.st.code * 2 ^ 52 + 2 ^ 51 + b2n t.parked * 2 ^ 50 + b2n t.det * 2 ^ 49 + b2n t.cxl * 2 ^ 48 +
    t.owner * 2 ^ 44 + t.prio * 2 ^ 42 + t.og * 2 ^ 40 + t.cause * 2 ^ 32 + t.tflags * 2 ^ 24 + o t.dtile 17 12 +
    o t.stile 11 6 + o t.stile2 5 0

/-- A ticket's resumable record (R214). -/
def Ticket.pack (t : Ticket) : List Byte :=
  if !t.live then padTo 64 (leBytes 8 t.status)
  else leBytes 8 t.status ++ leBytes 8 t.faddr.toNat ++ leBytes 4 t.elem ++ leBytes 2 t.fctl ++
    leBytes 2 (b2n t.sup + (if t.bind = 0 then 2 * t.sel else 0)) ++ leBytes 4 t.word.toNat ++ leBytes 4 t.seq ++ leBytes 8 t.xa.toNat ++
    leBytes 8 t.xb.toNat ++ leBytes 8 t.bind.toNat ++ leBytes 8 t.tag.toNat

/-- A ticket from its record and the saved PC (R214, R281). A parked ticket's entry waits again unless it is the one
being served. A resumed engine re-reads its command. -/
def Ticket.unpack (bs : List Byte) (pc : Nat) (served : Bool) : Ticket :=
  let w := leAt bs 0 8
  let o (v n : Nat) := if bit w v then some (fld w n 5) else none
  if !bit w 51 then { Ticket.empty with gen := fld w 54 10 }
  else { Ticket.empty with
    gen := fld w 54 10, live := true, st := (match fld w 52 2 with
      | 0 => .pending
      | 1 => .done
      | 2 => .faulted
      | _ => .cancelled)
    parked := bit w 50, det := bit w 49, cxl := bit w 48, owner := fld w 44 4, issuer := fld w 44 4, prio := fld w 42 2, og := fld w 40 2
    cause := fld w 32 8, tflags := fld w 24 8, dtile := o 17 12, stile := o 11 6, stile2 := o 5 0
    faddr := wordAt bs 8, elem := leAt bs 0x10 4, fctl := leAt bs 0x14 2, sup := bit (leAt bs 0x16 2) 0
    sel := if leAt bs 0x30 8 = 0 then fld (leAt bs 0x16 2) 1 1 else fld (leAt bs 0x30 8) 5 1, word := BitVec.ofNat 32 (leAt bs 0x18 4), seq := leAt bs 0x1C 4
    xa := wordAt bs 0x20, xb := wordAt bs 0x28, bind := wordAt bs 0x30, tag := wordAt bs 0x38
    pc := BitVec.ofNat 56 pc, entryWaits := bit w 50 && !served, seen := bit w 49
    target := if fld (leAt bs 0x18 4) 25 6 = 0x32 then some (leAt bs 0x20 2) else none }

/-- The key of an MCMD's command: issuing core, ticket slot and issue sequence (R375). -/
def mcmdKey (cn n seq : Nat) : Nat := cn * 2 ^ 40 + n * 2 ^ 32 + seq % 2 ^ 32

/-- A restored ticket with what its device still keeps of it (R214, R375): the command that its target has accepted (log 70), the
state of its matches and its scope. One whose device keeps nothing refers to a half when its descriptor has VERS = 1 (R199). -/
def Ticket.rejoin (t old : Ticket) (cmd : List Byte) (vers : Bool) : Ticket :=
  let u := { t with cmd := if t.target.isSome then cmd else [] }
  if old.live && t.live && old.gen = t.gen && old.seq = t.seq then
    { u with doomed := old.doomed, rot := old.rot, fabric := old.fabric, refs := old.refs }
  else { u with refs := t.bind == 0 || vers }

/-- VERS of the descriptor that a ticket's binding word names (R182, R214). -/
def State.bindVers (s : State) (cn bind : Nat) : Bool :=
  bind != 0 && match (s.unheld fun t => t.supRead cn (t.partNo cn) (bind / 64 * 64) 6 64).1 with
    | .ok bs => bit (leAt bs 0x10 8) 18
    | .error _ => false

/-- A table slot binding (R282). -/
def Binding.pack : Option Binding → List Byte
  | none => List.replicate 64 0
  | some b => padTo 0x30 b.desc ++ leBytes 8 b.addr.toNat ++ leBytes 8 (b.sel * 2 ^ 16 + b.ver)

/-- A table slot from its saved binding; a zero address is an empty slot (R183). -/
def Binding.unpack (bs : List Byte) : Option Binding :=
  if leAt bs 0x30 8 = 0 then none
  else some { desc := slice bs 0 0x30, addr := wordAt bs 0x30, sel := fld (leAt bs 0x38 8) 16 1, ver := fld (leAt bs 0x38 8) 0 16 }

/-- An inbound queue record (R282). -/
def packQueue (q : List QEntry) : List Byte :=
  let tags := (List.range 8).foldl (fun acc i => acc + b2n (q.getD i { tag := false, val := 0 }).tag * 2 ^ i) 0
  padTo 256 (padTo 128 (q.flatMap fun e => leBytes 16 e.val.toNat) ++ leBytes 1 tags ++ leBytes 1 q.length)

/-- A queue from its record. A queue holds 8 entries (R18); R281 and R347 do not check the count, and what one above 8 gives is said
nowhere: the 8 entries (DESIGN CHOICE, log 88). -/
def unpackQueue (bs : List Byte) : List QEntry :=
  (List.range (min (leAt bs 129 1) 8)).map fun i =>
    { tag := bit (leAt bs 128 1) i, val := BitVec.ofNat 128 (leAt bs (16 * i) 16) }

/-- A message entry (R282). -/
def Msg.pack (m : Msg) : List Byte :=
  padTo 64 (leBytes 8 m.target.toNat ++ leBytes 2 m.srcCn ++ leBytes 2 m.srcDev ++ leBytes 4 m.payload.length ++
    m.payload.flatMap fun w => leBytes 8 w.toNat)

/-- A message from its entry; it counts as arrived when it is restored, since the entry holds no cycle (log 71). -/
def Msg.unpack (bs : List Byte) (cycle : Nat) : Msg :=
  { target := wordAt bs 0, srcCn := leAt bs 8 2, srcDev := leAt bs 10 2, arrived := cycle
    payload := (List.range (min (leAt bs 12 1) 4)).map fun i => wordAt bs (16 + 8 * i) }

/-- The messages at a core's sending port: those it has sent that no target has taken yet (R280, R282). -/
def State.sendPort (s : State) (cn : Nat) : List Msg :=
  s.net.filterMap fun r => match r.op with
    | .send m => if r.src = cn then some m else none
    | _ => none

/-- A message on its way from a core (R230, R238). -/
def State.sendReq (s : State) (cn slot : Nat) (sup : Bool) (m : Msg) : Req :=
  let dev := fld m.target.toNat 16 16
  { rid := 0, src := cn, slot := slot, part := s.partNo cn, sup := sup, va := m.target, fpc := 0
    home := if s.isLocal dev then .scratch m.cn 0 else .remote dev m.cn 0, op := .send m, og := none, depart := none, due := none }

/-- Whether a message waits in the network: the target's inbox is full and its port holds 16 already (R280). -/
def State.portFull (s : State) (cn : Nat) : Bool := 16 ≤ (s.core cn).heldIn.length && 16 ≤ (s.core cn).inbox.length

/-- The 96 KiB context area of a core (R282). -/
def State.packCore (s : State) (cn : Nat) : List Byte :=
  let c := s.core cn
  let strands := (List.range 12).flatMap fun i => (c.strand i).pack cn i
  let tickets := (List.range 64).flatMap fun i => (c.ticket i).pack
  let tiles := (List.range 32).flatMap fun i => leBytes 8 (c.tile i).word
  let binds := (List.range 8).flatMap fun i => Binding.pack (c.binding i)
  let queues := (List.range 4).flatMap fun i => packQueue (c.queues[i]?.getD [])
  let inbound := c.inbox ++ c.heldIn
  let outbound := (s.sendPort cn).take 16
  let regs := padTo 0x400 ((List.range 0x71).flatMap fun k => leBytes 8 ((s.coreReg cn k).getD 0))
  let hist := (List.range 64).flatMap fun i => leBytes 4 (c.hist[i]?.getD 0)
  let block := padTo 0x7F0 (padTo 0x500 (regs ++ hist) ++ leBytes 8 c.seq ++ leBytes 8 c.tstepSeq) ++
    leBytes 8 outbound.length ++ leBytes 8 inbound.length
  let pcs := (List.range 64).flatMap fun i => leBytes 8 (if (c.ticket i).live then (c.ticket i).pc.toNat else 0)
  let faults := (List.range 12).flatMap fun i => match (c.strand i).susp with
    | none => List.replicate 32 0
    | some r => padTo 32 (leBytes 8 r.cause ++ leBytes 8 r.faddr.toNat ++ leBytes 8 r.fpc.toNat)
  padTo 0x18000 (s.mem.readN (scratchKey cn 0) 0x10000 ++ strands ++ tickets ++ tiles ++ padTo 0x300 (padTo 0x200 binds) ++
    queues ++ padTo 0x800 (inbound.flatMap Msg.pack) ++ padTo 0x400 (outbound.flatMap Msg.pack) ++ block ++ pcs ++ faults)

/-- The core registers that a load takes from their saved words (R347): RW, SRW and W1C registers with QCODE. -/
def CoreRegs.load (r : CoreRegs) (w : Nat → Nat) : CoreRegs :=
  let v (k : Nat) : Word := BitVec.ofNat 64 (w k)
  { r with
    lost := bit (w 0x0A) 0, lostCnt := fld (w 0x0A) 16 16, claim := if bit (w 0x10) 4 then some (fld (w 0x10) 0 4) else none
    qhnd := v 0x11, qcode := v 0x12, htab := htabBits (w 0x24), fhnd := v 0x25, wdog := wdogBits (w 0x26), ctxbase := v 0x28
    perm := Vector.ofFn fun i => v (0x30 + i.val), bdtab := v 0x50, sltab := v 0x51 }

/-! ### Run lists after a context load -/

/-- A byte list in pieces of 32 bytes. -/
def pieces : (fuel : Nat) → List Byte → List (List Byte)
  | 0, _ => []
  | n + 1, bs => if bs.isEmpty then [] else bs.take 32 :: pieces n (bs.drop 32)

/-- The queued task records of a scratchpad (R40): offset and record, for each 32 bytes whose STATE is QUEUED and whose Reserved
bits and low ENTRY bits are zero. -/
def queuedRecords (scratch : List Byte) : List (Nat × Nat) :=
  let rs := pieces 2048 scratch
  ((List.range rs.length).zip (rs.map leNat)).filterMap fun r =>
    if fld r.2 181 2 = 2 && fld r.2 183 9 = 0 && fld r.2 208 16 = 0 && fld r.2 56 8 = 0 && fld r.2 0 2 = 0 then some (32 * r.1, r.2)
    else none

/-- The records of one level from a record on, by LINK. -/
def linkChain (rs : List (Nat × Nat)) : (fuel : Nat) → (off : Nat) → List (Nat × Nat)
  | 0, _ => []
  | n + 1, off => match getKey rs off with
    | none => []
    | some r => (off, r) :: linkChain rs n (32 * fld r 192 16)

/-- The run list of a level after a context load (R40): from the records that no other one links to, along LINK. A record that
stood in the list before keeps its cycle of entry; the others have that of their STAMP. R282 and R347 hold no list heads: that the
lists follow the loaded records is the model's choice (log 72). -/
def loadedLevel (old : List (Nat × Nat)) (rs : List (Nat × Nat)) (l : Nat) : List (Nat × Nat) :=
  let mine := rs.filter fun r => fld r.2 179 2 == l
  let heads := mine.filter fun r => !mine.any fun q => 32 * fld q.2 192 16 == r.1
  let chain := heads.flatMap fun h => linkChain mine mine.length h.1
  chain.map fun r => match getKey old r.1 with
    | some c => (r.1, if c / 2 ^ 16 % 2 ^ 32 = fld r.2 224 32 then c else fld r.2 224 32 * 2 ^ 16)
    | none => (r.1, fld r.2 224 32 * 2 ^ 16)

/-- Loads a core from its context area (R281, R347). `gang` also takes the fault registers and LMODE, as restore after a
gang stop reloads every field; CTXLD keeps read-only registers (R347), but for those of a fault entry that its area holds in
progress, with which that entry continues (R281). A live handler without a strand in entry serves a ticket entry when bit 8 of its CAUSE
is set, and a message otherwise (DESIGN CHOICE, log 88). -/
def State.unpackCore (s : State) (cn : Nat) (bs : List Byte) (gang : Bool) : State :=
  let w (k : Nat) := leAt bs (0x15400 + 8 * k) 8
  let c := s.core cn
  let r := c.regs.load w
  let rg : CoreRegs := { r with
    cause := BitVec.ofNat 64 (causeBits (w 0x20))
    faddr := BitVec.ofNat 64 (w 0x21)
    fpc := BitVec.ofNat 64 (w 0x22)
    fslot := BitVec.ofNat 64 (w 0x23)
    exposed := bit (w 0x70) 0 }
  let strand (i : Nat) := Strand.unpack (slice bs (0x10000 + 1024 * i) 1024) (slice bs (0x15E00 + 32 * i) 32) cn i
  let live := (strand 11).live
  let cause := rg.cause.toNat
  let inEntry := (List.range 11).find? fun i => (strand i).live && (strand i).inEntry
  let ticketEntry := live && inEntry.isNone && bit cause 8
  let r := if gang then rg else if live && (inEntry.isSome || ticketEntry) then { rg with exposed := r.exposed } else r
  let run : HandlerRun :=
    if !live then .idle
    else match inEntry with
      | some i => .strand i
      | none => if ticketEntry then .ticket (fld cause 9 6) else .message
  let n := min (leAt bs 0x15BF8 8) 32
  let msgs := (List.range n).map fun i => Msg.unpack (slice bs (0x14800 + 64 * i) 64) s.cycle
  let out := (List.range (min (leAt bs 0x15BF0 8) 16)).map fun i => Msg.unpack (slice bs (0x15000 + 64 * i) 64) s.cycle
  let scratch := bs.take 0x10000
  let queued := queuedRecords scratch
  let c1 : Core := { c with
    strands := Vector.ofFn fun i => strand i.val
    tickets := Vector.ofFn fun i =>
      let t := Ticket.unpack (slice bs (0x13000 + 64 * i.val) 64) (leAt bs (0x15C00 + 8 * i.val) 8)
        (ticketEntry && fld cause 9 6 == i.val)
      t.rejoin (c.ticket i.val) ((getKey s.mcmds (mcmdKey cn i.val t.seq)).getD []) (s.bindVers cn t.bind.toNat)
    tiles := Vector.ofFn fun i => Tile.ofWord (leAt bs (0x14000 + 8 * i.val) 8)
    tslots := Vector.ofFn fun i => Binding.unpack (slice bs (0x14100 + 64 * i.val) 64)
    queues := Vector.ofFn fun i => unpackQueue (slice bs (0x14400 + 256 * i.val) 256)
    inbox := msgs.take 16
    heldIn := msgs.drop 16
    regs := r
    run := run
    hist := Vector.ofFn fun i => leAt bs (0x15800 + 4 * i.val) 4
    seq := leAt bs 0x15900 8
    tstepSeq := leAt bs 0x15908 8
    runList := Vector.ofFn fun l => loadedLevel (c.level l.val) queued l.val }
  let s1 := { s with net := s.net.filter fun q => q.src != cn || !q.isSend }
  { (s1.setCore cn c1).send (out.map (s.sendReq cn 12 false)) with mem := (s.mem.clear (scratchKey cn 0) 0x10000).writeN (scratchKey cn 0) scratch }

end Sys2Proof.Machine
end

