-- ==== Sys2Proof/Machine/HostRegs.lean ====
section
/-! DEFINITION. The host boundary (R286 to R291): the registers of region 0xF, launch notification, creation, destruction,
re-issue, gang stop and restore (R279 to R281), and the references to weight-set halves (R198 to R200). -/
namespace Sys2Proof.Machine

/-! ### Weight sets (R198 to R202) -/

/-- CTL of a binding's descriptor (R182). -/
def Binding.ctl (b : Binding) : Nat := leAt b.desc 0x10 8
/-- VERS of a binding (R182). -/
def Binding.vers (b : Binding) : Bool := bit b.ctl 18

/-- Whether a partition still references a half (R199): VSEL, a binding with VERS = 1, or a pending ticket. -/
def State.referenced (s : State) (p h : Nat) : Bool :=
  let x := s.part p
  x.vsel.follow && (x.vsel.sel == h || x.cores.any fun cn =>
    let c := s.core cn
    c.tslots.toList.any (fun b => match b with | some b => b.vers && b.sel == h | none => false) ||
      c.tickets.toList.any fun t => t.live && t.st == .pending && t.refs && t.sel == h)

/-- The followed weight-set descriptor of a partition, read at its home: 32 bytes. -/
def State.weightSet (s : State) (p : Nat) : Except Nat (List Byte) × State :=
  let x := s.part p
  s.unheld fun t => t.supRead x.lead p x.follow.toNat 4 32

/-- The home of the followed weight-set descriptor of a partition, which performs what changes it (R200). -/
def State.followHome (s : State) (p : Nat) : Home × State :=
  match s.unheld fun t => t.resolve (t.supAccess (t.part p).lead p) (t.part p).follow 16 with
  | (.ok g, t) => (g.home, t)
  | (.error _, t) => (.owner 0x10000, t)

/-- VER0, VER1, ACTIVE, HOLD0, HOLD1 of a weight-set descriptor (R198). -/
def wsVer (bs : List Byte) (h : Nat) : Nat := leAt bs (2 * h) 2
def wsActive (bs : List Byte) : Nat := fld (leAt bs 4 1) 0 1
def wsHold (bs : List Byte) (h : Nat) : Nat := leAt bs (8 + 4 * h) 4

/-- Changes HOLD[h] of the followed descriptor by one at its home; an unreadable descriptor leaves it. -/
def State.addHold (s : State) (p h : Nat) (up : Bool) : State :=
  match s.weightSet p with
  | (.error _, t) => t
  | (.ok bs, t) =>
    let n := if up then wsHold bs h + 1 else wsHold bs h - 1
    let put (u : State) : Bool × State :=
      match u.supWrite (u.part p).lead p ((u.part p).follow.toNat + 8 + 4 * h) 2 (leBytes 4 n) with
      | .ok v => (true, v)
      | .error _ => (false, u)
    (t.unheld put).2

/-- Sets the partition's note of its reference to a half. -/
def Part.setRefs (x : Part) (h : Nat) (v : Bool) : Part := { x with refs := x.refs.setIfInBounds h v }

/-- The end of a partition's reference to a half, at the descriptor's home (R199, R200): it has to have lost its last condition. -/
def State.endRef (s : State) (p h : Nat) : State :=
  if (s.part p).refs[h]?.getD false && !(s.referenced p h && (s.part p).status != .fatal) then
    (s.addHold p h false).modPart p fun x => x.setRefs h false
  else s

/-- Asks the descriptor's home to end a reference that has lost its last condition, unless it has been asked (R199, R200). -/
def State.askEnd (s : State) (p h : Nat) : State :=
  let asked := s.net.any fun r => r.part == p && r.op == .setRef h
  if (s.part p).refs[h]?.getD false && !s.referenced p h && !asked then
    let (home, t) := s.followHome p
    t.send [{ refRequest (s.part p) p h with home := home }]
  else s

/-- Ends the references that have lost their last condition: HOLD changes at the descriptor's home (R199, R200, R412). -/
def State.dropRefs (s : State) (p : Nat) : State := (s.askEnd p 0).askEnd p 1

/-- Starts the references that a loaded context makes (R199): to a half that the partition does not yet refer to. -/
def State.startRefs (s : State) (p : Nat) : State :=
  (List.range 2).foldl (fun t h =>
    if t.referenced p h && !((t.part p).refs[h]?.getD false) then (t.addHold p h true).modPart p fun x => x.setRefs h true else t) s

/-! ### Launch notification (R47) -/

/-- Whether a message is the launch notification of the host: source word 0xFFFF. -/
def Msg.isNotify (m : Msg) : Bool := m.srcDev == 0 && m.srcCn == 0xFFFF

/-- LNOTIFY (R47): a message to the lead core; a notification still undelivered takes the new index. R30 delivers a message from
the inbox and R226 to it; here one that has entered the inbox counts as delivered (DESIGN CHOICE, log 75). -/
def State.notifyLaunch (s : State) (p v : Nat) : State :=
  match s.part? p with
  | none => s
  | some x =>
    let idx := BitVec.ofNat 64 (v % 2 ^ 32)
    let m : Msg := { target := BitVec.ofNat 64 (x.key * 2 ^ 48 + 0xFFFF * 2 ^ 16 + x.lead), srcDev := 0, srcCn := 0xFFFF
                     payload := [idx], arrived := 0 }
    let upd (k : Msg) : Msg := if k.isNotify then { k with payload := [idx] } else k
    let waiting := s.net.any fun r => match r.op with | .send k => r.part == p && k.isNotify | _ => false
    let held := (s.core x.lead).heldIn.any Msg.isNotify
    let s1 := s.modPart p fun y => { y with notify := some (v % 2 ^ 32) }
    if waiting then { s1 with net := s1.net.map fun r => match r.op with
      | .send k => if r.part = p then { r with op := .send (upd k) } else r
      | _ => r }
    else if held then s1.modCore x.lead fun c => { c with heldIn := c.heldIn.map upd }
    else s1.send [{ rid := 0, src := 0xFFFF, slot := 12, part := p, sup := true, va := 0, fpc := 0, home := .owner x.lead
                    op := .send m, og := none, depart := none, due := none }]

/-! ### Start of a partition's cores (R290) -/

/-- A strand slot at the start of a partition. -/
def Template.strand (t : Template) : Strand := { Strand.empty with fctl := t.fctl &&& fctlMask, rkey := t.rkey }

/-- The control strand of the core with rank k. -/
def Template.control (t : Template) (k : Nat) : Strand :=
  { t.strand.setX 4 (BitVec.ofNat 64 k) with live := true, sup := true, pc := t.entry, jumped := true }

/-- A core with rank k as a partition starts it. -/
def Template.core (t : Template) (k : Nat) : Core :=
  let regs : CoreRegs := { CoreRegs.reset with
    htab := htabBits t.htab.toNat
    fhnd := t.fhnd
    wdog := wdogBits t.wdog.toNat
    ctxbase := t.ctxbase0 + BitVec.ofNat 64 (0x18000 * k)
    perm := t.perm
    bdtab := t.bdtab
    sltab := t.sltab }
  { Core.reset with
    strands := Vector.ofFn fun i => if i.val = 0 then t.control k else t.strand
    regs := regs }

/-- Zeroes the scratchpads of the partition's cores and, when asked, its dense memories (R242, R288, R291). -/
def State.zeroMemories (s : State) (x : Part) (dense : Bool) : State :=
  let m1 := x.cores.foldl (fun (m : Memory) cn => (m.clear (scratchKey cn 0) 0x10000).clear (chipKey cn 0) 0x8000) s.mem
  let m2 := if dense then x.sequencers.foldl (fun (m : Memory) cn =>
    (m.clear (operandKey cn 0) 0x200000).clear (accKey cn 0) 0x400000) m1 else m1
  { s with mem := m2 }

/-- Starts every core of a partition (R290). -/
def State.startCores (s : State) (x : Part) : State :=
  let s1 := x.cores.zipIdx.foldl (fun t c => t.setCore c.1 (x.tmpl.core c.2)) s
  { s1 with stepped := s1.stepped.filter (fun e => !x.holds e.1), mcmds := s1.mcmds.filter fun e => !x.holds (e.1 / 2 ^ 40) }

/-! ### Creation (R288, R289) -/

/-- A word of the creation record. -/
def State.crec (s : State) (off : Nat) : Nat := leNat (s.mem.readN (crecKey off) 8)

/-- The bits of a little-endian mask of n bytes in the creation record. -/
def State.crecMask (s : State) (off n : Nat) : List Nat :=
  let v := leNat (s.mem.readN (crecKey off) n)
  (List.range (8 * n)).filter fun i => bit v i

/-- Whether a home group value is acceptable (R139). -/
def hgValid (x : Part) (hg : Nat) : Bool :=
  match fld hg 62 2 with
  | 0 => true
  | 1 => !isDense (fld hg 0 16) && x.holds (fld hg 0 16)
  | 2 => !(hgClusters hg).isEmpty && (hgClusters hg).all fun c => x.clusters.contains c
  | _ => false

/-- Whether a reserve word names frames of stack st (R162, R289); its zero fields are judged with the record's others. -/
def reserveValid (st w : Nat) : Bool :=
  let first := fld w 8 36
  let n := fld w 48 16
  (first = 0 && n = 0) || (first + n ≤ 2 ^ 24 && 0 < n &&
    stackOfPc (first / 2 ^ 14) = st && stackOfPc ((first + n - 1) / 2 ^ 14) = st)

/-- The partition that the creation record describes. -/
def State.crecPart (s : State) : Part :=
  let w (off : Nat) : Word := BitVec.ofNat 64 (s.crec off)
  let tmpl : Template := { fctl := w 0x190, rkey := w 0x198, htab := w 0x1A0, fhnd := w 0x1A8, wdog := w 0x1B0
                           bdtab := w 0x1B8, sltab := w 0x1C0, perm := Vector.ofFn fun i => w (0x1D0 + 8 * i.val)
                           ctxbase0 := w 0x1C8, entry := BitVec.ofNat 56 (s.crec 0x250) }
  { Part.none with
    key := fld (s.crec 0) 16 16
    clusters := s.crecMask 8 128
    dense := s.crecMask 0x88 4
    conv := fld (s.crec 0x90) 0 3
    migrate := bit (s.crec 0x90) 8
    ringBase := w 0x98
    ringLog := fld (s.crec 0xA0) 0 5
    ptroot := w 0xA8
    fpool := w 0xB0
    alist := alistBits (s.crec 0xB8)
    alist0 := alistBits (s.crec 0xB8)
    hg := Vector.ofFn fun i => hgBits (s.crec (0xC0 + 8 * i.val))
    hg0 := Vector.ofFn fun i => hgBits (s.crec (0xC0 + 8 * i.val))
    doms := Vector.ofFn fun i => w (0xF8 + 8 * i.val)
    follow := w 0x108
    reserves := Vector.ofFn fun i => w (0x110 + 8 * i.val)
    tmpl := tmpl }

/-- The refusal reason of the creation record for partition number p, 0 for none (R287, R289); the lowest applies. -/
def State.createReason (s : State) (p : Nat) (x : Part) : Nat :=
  let w (off : Nat) := s.crec off
  let taken := s.parts.any fun q => (q.2.clusters.any fun c => x.clusters.contains c) || q.2.dense.any fun d => x.dense.contains d
  let zeros := fld (w 0) 6 10 = 0 && fld (w 0) 32 32 = 0 && fld (w 0x88) 32 32 = 0 && fld (w 0x90) 3 5 = 0 &&
    fld (w 0x90) 9 55 = 0 && w 0x98 < 2 ^ 40 && w 0x98 % 64 = 0 && 4 ≤ w 0xA0 && w 0xA0 ≤ 16 && w 0x1C8 % 4096 = 0 &&
    w 0x250 % 4 = 0 && (List.range 16).all (fun i => fld (w (0x110 + 8 * i)) 0 8 = 0 && fld (w (0x110 + 8 * i)) 44 4 = 0) &&
    (List.range 53).all (fun i => w (0x258 + 8 * i) = 0) && fld (w 0) 0 6 = p
  let hgs := (List.range 7).all fun i => hgValid x (w (0xC0 + 8 * i))
  let res := (List.range 16).all fun i => reserveValid i (w (0x110 + 8 * i))
  if taken then 1
  else if (s.part? p).isSome then 2
  else if x.key = 0 || x.clusters.isEmpty then 4
  else if 4 < x.conv then 5
  else if !hgs then 6
  else if !res then 7
  else if !zeros then 8
  else 0

/-- CCMD (R287, R288): command 1 asks Rosby to create; a write while busy is ignored. -/
def State.askCreate (s : State) (p : Nat) : State :=
  if s.dev.command.isSome then s
  else { s with dev := { s.dev with command := some (1, p % 64), cstat := 1, creason := 0 } }

/-- CSTAT leaves busy (R287, R294). -/
def State.endCommand (s : State) (stat reason : Nat) : State :=
  { s with dev := { s.dev with command := none, cstat := stat, creason := reason, msix := s.dev.msix + 1 } }

/-- Writes back and drops every line of the slices of a partition's clusters, before its ways are converted (R20). -/
def State.flushSlices (s : State) (x : Part) : State :=
  let keys := (s.l2.map (·.1)).filter fun k => x.clusters.contains (clusterOf (k / 2 ^ 49))
  keys.foldl (fun t k => (t.writeBack k).dropLine k) s

/-- The storage pages of a partition's migration reserves (R162, R289). -/
def Part.reservePages (x : Part) : List Nat :=
  if x.migrate then x.reserves.toList.flatMap fun w => (List.range (fld w.toNat 48 16)).map (fld w.toNat 8 36 + ·) else []

/-- The reserves of a partition join the device's migration reserve (R289). -/
def State.addReserve (s : State) (x : Part) : State := { s with reserve := sortNats (s.reserve ++ x.reservePages) }

/-- Rosby finishes a creation (R288, R290): refusal with its reason, or the partition with its cores started. -/
def State.finishCreate (s : State) : State :=
  match s.dev.command with
  | some (1, p) =>
    let x := s.crecPart
    match s.createReason p x with
    | 0 =>
      let s1 := (s.flushSlices x).setPart p x
      let s2 := ((s1.zeroMemories x true).startCores x).addReserve x
      if x.follow = 0 then s2.endCommand 2 0
      else match s2.weightSet p with
        | (.error _, _) => s.endCommand 3 9
        | (.ok bs, t) =>
          let h := wsActive bs
          let y := ({ x with vsel := { sel := h, follow := true, ver := wsVer bs h } }).setRefs h true
          ((t.setPart p y).addHold p h true).endCommand 2 0
    | r => s.endCommand 3 r
  | _ => s

/-- CCMD command 2 (R288): the partition stops without a fatal record, its references end and its units are freed. -/
def State.destroyPart (s : State) (p : Nat) : State :=
  if s.dev.command.isSome then s
  else match s.part? p with
    | none => s.endCommand 3 3
    | some x =>
      let s1 := (List.range 2).foldl (fun t h => if x.refs[h]?.getD false then t.addHold p h false else t) s
      let s2 := s1.halt p
      ({ s2 with
        parts := delKey s2.parts p
        cores := s2.cores.filter fun c => !x.holds c.1
        net := s2.net.filter fun r => r.part != p || match r.op with
          | .loss _ c _ _ => !x.holds c
          | _ => false
        doms := s2.doms.filter fun d => d.2.part != p
        reserve := s2.reserve.filter fun f => !x.reservePages.contains f }).endCommand 2 0

/-! ### Gang stop and restore (R279 to R281, R291) -/

/-- Requests for a step tag and for a TSTEP: a gang stop withdraws them, and the instruction is executed again (R195). -/
def Req.withdraws (r : Req) : Bool := r.op.parks

/-- Whether a gang stop lets a wait end (R52). -/
def State.holdEnds (s : State) (h : Hold) : Bool :=
  match h with
  | .reply rid => !s.net.any fun r => r.rid == rid && r.withdraws
  | _ => h.mid

/-- Whether a strand stands at a bundle boundary with its register writes made (R280), but for those of held atomics (R275). -/
def Strand.atBoundary (t : Strand) (held : Nat → Bool) : Bool :=
  (t.rest.isEmpty || t.midWaits) && t.await.isNone && !t.refusalDue &&
    t.pend.all fun q => held q.rid || (q.val.isSome && q.turns.isSome && q.turns != some 0)

/-- Whether a core is quiet at a bundle boundary: nothing of a strand is half done and no element runs (R280). -/
def State.quiet (s : State) (cn : Nat) : Bool :=
  (s.core cn).strands.toList.all (fun t => t.atBoundary (fun rid => s.net.any fun r => r.rid == rid && s.replayHolds r) && !(t.holds.any fun h => s.holdEnds h.2)) &&
    (s.core cn).tickets.toList.all fun t => !t.running || t.collective

/-- The dies and domains of an instance: the domain, and its partner when it is paired (R220). -/
def State.instanceOf (s : State) (die dom : Nat) : List (Nat × Nat × Domain) :=
  match s.dom? die dom with
  | none => []
  | some d =>
    if !d.paired then [(die, dom, d)]
    else match s.dom? (1 - die) d.pair with
      | some e => [(die, dom, d), (1 - die, d.pair, e)]
      | none => []

/-- The domain of a COLL ticket (R229). -/
def Ticket.collDomain (t : Ticket) : Option Nat :=
  match instrOf t.word with
  | .coll .. => some (fld t.xa.toNat 0 6)
  | _ => none

/-- Whether a ticket was issued before another: by order of issue, and by issue sequence among restored ones (R214). -/
def Ticket.before (a b : Ticket) : Bool := a.order < b.order || (a.order == b.order && a.seq ≤ b.seq)

/-- The pending COLL tickets of a core on a domain, in issue order (R229). -/
def Core.collsOn (c : Core) (dom : Nat) : List Nat :=
  let all := (List.range 64).filter fun n => (c.ticket n).live && (c.ticket n).st == .pending && (c.ticket n).collDomain == some dom
  sortBy all fun a b => (c.ticket a).before (c.ticket b)

/-- The members of an instance with the ticket that takes part in its first collective: core, ticket slot (R229). -/
def State.collMembers (s : State) (die dom : Nat) : List (Nat × Option Nat) :=
  let ms := (s.instanceOf die dom).flatMap fun x => (x.2.2.members x.1).map fun m => (m, ((s.core m).collsOn x.2.1).head?)
  sortBy ms fun a b => a.1 ≤ b.1

/-- Whether every member has joined the first collective of an instance, which starts its combination (R338): their COLLs have left
the waits on their tiles, which is when they issue. -/
def State.collStarts (s : State) (die dom : Nat) : Bool :=
  let ms := s.collMembers die dom
  !ms.isEmpty && ms.all fun m => match m.2 with
    | some n => !(s.core m.1).unsent ((s.core m.1).ticket n)
    | none => false

/-- Requests that a gang stop need not drain: the end of a reference, a message that its target's full port does not take (R280), and
an atomic held until a replay (R275), which the strand, as it is saved, issues again. -/
def State.mayStay (s : State) (r : Req) : Bool :=
  match r.op with
  | .setRef _ => true
  | .send m => s.portFull m.cn
  | _ => r.withdraws || s.replayHolds r

/-- Whether the gang stop of a partition can save: every core quiet, no phase open and its traffic drained (R223, R280). A combination
that has started is over, or has writes on their way (R339). -/
def State.canSave (s : State) (p : Nat) : Bool :=
  match s.part? p with
  | none => false
  | some x => x.status = .stopping && x.cores.all (fun cn => s.quiet cn && (s.core cn).phase.isNone) &&
      s.net.all fun r => r.part != p || s.mayStay r

/-- A core whose strands stand before the bundles that wait: what their words have taken or sent is given back (R280). -/
def Core.standBefore (c : Core) : Core :=
  let d := (List.range 12).foldl Core.giveTiles c
  { d with strands := d.strands.map fun t => { t.dropMid with
    holds := t.holds.filter (fun h => h.2.taken.isNone), pend := t.dropMid.pend.filter (·.val.isSome) } }

/-- Withdraws the partition's arrivals at incomplete barrier instances, with the bundles that wait (R223, R280). -/
def State.withdraw (s : State) (p : Nat) : State :=
  (s.part p).cores.foldl (fun t cn => t.modCore cn Core.standBefore)
    { s with doms := s.doms.map fun d => if d.2.part = p then (d.1, { d.2 with arrived := [], votes := [] }) else d }

/-- Writes the context areas of cores in order; a fault gives the core and the cause. An area stands where CTXBASE points, also at no
multiple of 4,096 (DESIGN CHOICE, log 88). -/
def State.saveCores (s : State) (p : Nat) : List Nat → Except (Nat × Nat) State
  | [] => .ok s
  | cn :: r =>
    match s.supWrite cn p (s.core cn).regs.ctxbase.toNat 0x2000 (s.packCore cn) with
    | .error c => .error (cn, c)
    | .ok t => t.saveCores p r

/-- Whether a request is the host's launch notification, which no core's context holds (R47). -/
def Req.notifies (r : Req) : Bool := match r.op with | .send m => m.isNotify | _ => false

/-- The gang stop saves (R280): contexts, SAVED, the KIND 9 record; a translation fault is fatal. -/
def State.gangSave (s : State) (p : Nat) : State :=
  if !s.canSave p then s
  else
    let x := s.part p
    let s1 := s.withdraw p
    match s1.saveCores p x.cores with
    | .error (cn, c) => if c = heldCause then s else s1.fatalAlone p c cn 0
    | .ok t => ({ t with net := t.net.filter fun r => r.part != p || r.notifies || !(r.isSend || r.withdraws || s.replayHolds r) }.modPart p fun y =>
        { y with saved := true, status := .saved, hgSet := [] }).report p
        [errRecord 9 0 x.lead 0 0 0 x.cores.length]

/-- The partition registers of a saved area (R281, R282): PTROOT, FPOOL, ALIST, and the home registers that the host has not written
since the save (R139). -/
def Part.load (x : Part) (bs : List Byte) : Part :=
  let w (k : Nat) : Nat := leAt bs (0x15400 + 8 * k) 8
  { x with
    ptroot := BitVec.ofNat 64 (w 0x60)
    fpool := BitVec.ofNat 64 (w 0x61)
    alist := alistBits (w 0x62)
    hg := Vector.ofFn fun i => if x.hgSet.contains i.val then x.hg[i.val]?.getD 0 else hgBits (w (0x40 + i.val)) }

/-- Reads the context areas of cores in order, each through the page table of the stopped partition. Every area holds the partition's
registers; where the areas differ, no rule says which counts: those of the last core loaded, the highest CN, stand (DESIGN CHOICE,
log 88). An area is read where CTXBASE points, also at no multiple of 4,096, for which R345 has a check and R280 and R281 have none
(DESIGN CHOICE, log 88). -/
def State.readAreas (s : State) (p : Nat) : List Nat → Except (Nat × Nat) (List (Nat × List Byte) × State)
  | [] => .ok ([], s)
  | cn :: r =>
    match s.unheld fun t => t.supRead cn p (t.core cn).regs.ctxbase.toNat 0x2000 0x18000 with
    | (.error c, _) => .error (cn, c)
    | (.ok bs, t) => match t.readAreas p r with
      | .error e => .error e
      | .ok (l, u) => .ok ((cn, bs) :: l, u)

/-- Reloads the cores of a partition from their areas, all read before any is loaded. -/
def State.loadCores (s : State) (p : Nat) (cns : List Nat) : Except (Nat × Nat) State :=
  match s.readAreas p cns with
  | .error e => .error e
  | .ok (l, t) => .ok (l.foldl (fun u a => (u.unpackCore a.1 a.2 true).modPart p fun y => y.load a.2) t)

/-- Restore (R281): ignored unless SAVED; every core is reloaded and resumes. -/
def State.restorePart (s : State) (p : Nat) : State :=
  match s.part? p with
  | none => s
  | some x =>
    if !x.saved then s
    else match s.loadCores p x.cores with
      | .error (cn, c) => s.fatalAlone p c cn 0
      | .ok t => ((t.startRefs p).dropRefs p).modPart p fun y => { y with saved := false, stop := false, status := .running, hgSet := [] }

/-- Re-issue after a fatal fault (R291): VSEL and the consumer index are kept, ALIST and HG1 to HG7 are the creation record's again (R290). -/
def State.reissuePart (s : State) (p : Nat) : State :=
  match s.part? p with
  | none => s
  | some x =>
    if x.status ≠ .fatal then s
    else
      let s1 := { s with net := s.net.filter fun r => r.part != p || match r.op with
        | .setRef _ | .loss .. => true
        | _ => false }
      let s2 := ((s1.withdraw p).zeroMemories x false).startCores x
      s2.modPart p fun y => { y with
        status := .running
        stop := false
        saved := false
        alist := y.alist0
        hg := y.hg0
        hgSet := []
        domload := []
        routload := [] }

/-! ### Registers of region 0xF (R286, R287) -/

/-- Starts a load of the routine table (R192); the write is performed, and ROUTBASE reads it, when the load is done. -/
def State.startRoutines (s : State) (p : Nat) (who : Option (Nat × Nat)) (v : Nat) : State :=
  s.modPart p fun x => { x with routload := x.routload ++ [(who, BitVec.ofNat 64 v)] }

/-- Starts a domain load (R221): [6] die, [5:0] domain. -/
def State.startDomain (s : State) (p : Nat) (who : Option (Nat × Nat)) (v : Nat) : State :=
  s.modPart p fun x => { x with domload := x.domload ++ [(who, v % 128)] }

/-- A write of LCONS by the partition (R286, R294). -/
def State.setLcons (s : State) (p v : Nat) : State :=
  s.modPart p fun x => { x with
    lcons := v % 2 ^ 32
    msix := x.msix + b2n (0 < (v + 2 ^ 32 - x.lcons) % 2 ^ 32 && (v + 2 ^ 32 - x.lcons) % 2 ^ 32 < 2 ^ 31) }

/-- A record that was dropped is reported when the ring has room again (R292). -/
def State.eqConsPart (s : State) (p v : Nat) : State :=
  (s.modPart p fun x => { x with eq := { x.eq with cons := v } }).report p []

/-- The consumer index of the device error queue. -/
def State.eqConsDev (s : State) (v : Nat) : State :=
  ({ s with dev := { s.dev with eq := { s.dev.eq with cons := v } } }).reportDevice []

/-- GCMD (R286). -/
def State.gcmd (s : State) (p v : Nat) : State :=
  match v with
  | 1 => s.gangStop p
  | 2 => s.restorePart p
  | 3 => s.reissuePart p
  | _ => s

/-- A write of a partition page register by a strand of the partition, or by the host (who = none) (R286). -/
def State.writePartPage (s : State) (p off v : Nat) (who : Option (Nat × Nat)) : State :=
  match off with
  | 0x000 => s.notifyLaunch p v
  | 0x008 => s.startRoutines p who v
  | 0x010 => s.startDomain p who v
  | 0x018 => s.gcmd p v
  | 0x030 => s.eqConsPart p v
  | 0x038 => if who.isSome then s.setLcons p v else s
  | _ => s

/-- A read of a partition page register (R286). -/
def State.readPartPage (s : State) (p off : Nat) : Nat :=
  let x := s.part p
  match off with
  | 0x008 => x.routbase.toNat
  | 0x020 => (Config.partEqBase p).toNat
  | 0x028 => x.eq.prod % 2 ^ 64
  | 0x030 => x.eq.cons % 2 ^ 64
  | 0x038 => x.lcons
  | _ => 0

/-- A write of PCAP (R287, R297). -/
def State.setPcap (s : State) (v : Nat) : State :=
  let w := v % 2 ^ 12
  if 600 ≤ w && w ≤ 2100 then { s with dev := { s.dev with pcap := w } } else s

/-- A host write of a device page register (R287). -/
def State.writeDevPage (s : State) (off v : Nat) : State :=
  match off with
  | 0x030 => s.eqConsDev v
  | 0x050 => { s with dev := { s.dev with sqCons := v } }
  | 0x058 => { s with dev := { s.dev with ftbase := BitVec.ofNat 64 v } }
  | 0x060 => { s with dev := { s.dev with ftcount := v % 2 ^ 17 } }
  | 0x068 => s.setPcap v
  | 0x078 => match fld v 0 8 with
    | 1 => s.askCreate (fld v 8 6)
    | 2 => s.destroyPart (fld v 8 6)
    | _ => s
  | _ =>
    if 0x8000 ≤ off && off < 0x8400 && off % 8 = 0 then
      { s with mem := s.mem.writeN (crecKey (off - 0x8000)) (leBytes 8 v) }
    else s

/-- A read of a device page register by the host (R287); a WO register and an unlisted offset read zero. -/
def State.readDevPage (s : State) (off : Nat) : Nat :=
  let d := s.dev
  match off with
  | 0x020 => Config.eqBase.toNat
  | 0x028 => d.eq.prod % 2 ^ 64
  | 0x030 => d.eq.cons % 2 ^ 64
  | 0x040 => Config.sqBase.toNat
  | 0x048 => d.sqProd % 2 ^ 64
  | 0x050 => d.sqCons % 2 ^ 64
  | 0x058 => d.ftbase.toNat
  | 0x060 => d.ftcount
  | 0x068 => d.pcap
  | 0x070 => d.throt
  | 0x080 => d.cstat + d.creason * 2 ^ 8
  | _ => if 0x8000 ≤ off && off < 0x8400 && off % 8 = 0 then s.crec (off - 0x8000) else 0

/-- Whether the host function in use reaches a register (R241, R286): the physical function every one; a virtual one only launch
notification, GCMD and the error queue of its own partition. -/
def State.hostReaches (s : State) (page off : Nat) : Bool :=
  match s.dev.function with
  | none => true
  | some p => page == 0x100 + p && (off == 0x000 || off == 0x018 || (0x020 ≤ off && off ≤ 0x038))

/-- A host write of any register (R286): the device page, or the page of a partition that exists. -/
def State.hostRegister (s : State) (page off v : Nat) : State :=
  if !s.hostReaches page off then s
  else if page = 0 then s.writeDevPage off v
  else if 0x100 ≤ page && page < 0x140 then s.writePartPage (page - 0x100) off v none
  else s

/-- What a host read of a register gives (R286, R287); it changes nothing. -/
def State.hostRead (s : State) (page off : Nat) : Nat :=
  if !s.hostReaches page off then 0
  else if page = 0 then s.readDevPage off
  else if 0x100 ≤ page && page < 0x140 then s.readPartPage (page - 0x100) off
  else 0

/-! ### What the host sets while a partition is stopped (R20, R132, R139) -/

/-- Drops the near copies of a partition's cores. -/
def State.dropNear (s : State) (x : Part) : State := x.cores.foldl (fun t cn => t.modCore cn fun c => { c with near := [] }) s

/-- The bytes of the ways a to b of a slice of the partition after they have become chip scratchpad: their contents are lost, so
every one is a free value (R132; log 85). -/
def State.loseWays (s : State) (x : Part) (a b : Nat) : State :=
  let one (m : Memory) (cn : Nat) : Memory := (List.range ((b - a) * 6144)).foldl (fun n i =>
    n.write (chipKey cn (a * 6144 + i)) ((Config.freeReg (2 ^ 92 + s.cycle * 2 ^ 40 + cn * 2 ^ 15 + a * 6144 + i)).setWidth 8)) m
  { s with mem := (x.cores.filter fun cn => !isDense cn).foldl one s.mem }

/-- The host changes the converted-way count of a stopped partition (R132): the lines of its slices are written back and dropped
(R20); a count above 4 is ignored. -/
def State.setWays (s : State) (p c : Nat) : State :=
  match s.part? p with
  | none => s
  | some x =>
    if !(x.status = .saved || x.status = .fatal) || 4 < c then s
    else (((s.flushSlices x).dropNear x).loseWays x x.conv c).modPart p fun y => { y with conv := c }

/-- The host writes a home register of a gang-stopped partition (R139): the lines that its cores' slices hold are written back and
dropped, those homed through the register among them; an unacceptable value is refused. -/
def State.setHome (s : State) (p k : Nat) (v : Word) : State :=
  match s.part? p with
  | none => s
  | some x =>
    if x.status ≠ .saved || k = 0 || 7 < k || !hgValid x v.toNat then s
    else ((s.flushSlices x).dropNear x).modPart p fun y => { y with
      hg := y.hg.setIfInBounds (k - 1) (hgBits v.toNat), hgSet := insertNat (k - 1) y.hgSet }

end Sys2Proof.Machine
end

