-- ==== Sys2Proof/Machine/Perform.lean ====
section
/-! DEFINITION. Performing requests at their homes (R165 to R169, R180, R181): which request may be performed now, and what
performing it does. -/
namespace Sys2Proof.Machine

/-- Whether a pending ticket of a strand and order group was issued before a request (R181). -/
def State.ticketBefore (s : State) (cn slot og rid : Nat) : Bool :=
  (s.core cn).tickets.toList.any fun t => t.live && t.st == .pending && t.issuer == slot && !t.past && t.og == og && t.order < rid &&
    !s.ordHolds cn slot og t.order

/-- Whether an ordered atomic waits for the earlier ones and the earlier tickets of its order group, or for a replay (R181); one that
still loses ownership elsewhere is not performed (R165). -/
def State.groupHeld (s : State) (r : Req) : Bool :=
  match r.og with
  | none => false
  | some g =>
    s.replayHolds r ||
      (s.net.any fun q => q.src == r.src && q.slot == r.slot && q.og == some g && ((q.rid < r.rid && !s.replayHolds q) || q.op.isLoss)) ||
      s.ticketBefore r.src r.slot g r.rid

/-- Whether a request is a LDA. -/
def ReqOp.acquires : ReqOp → Bool
  | .loadAcq .. => true
  | _ => false

/-- Whether a request is a scheduled one; the departure mark of a SHIP at the update engine is no slot. -/
def Req.armed (r : Req) : Bool := r.depart.isSome && match r.op with | .ship .. => false | _ => true

/-- Whether an armed request waits for its slot cycle. -/
def Req.docked (r : Req) : Bool := r.armed && r.due.isNone

/-- Whether a request q was issued before r by r's strand, or before r's ticket by the strand that issued it (R167, R168). -/
def State.issuedBefore (s : State) (q r : Req) : Bool :=
  q.src == r.src && ((q.slot == r.slot && q.rid < r.rid) || (16 ≤ r.slot &&
    let t := (s.core r.src).ticket (r.slot - 16)
    !t.past && t.issuer == q.slot && q.rid < t.order))

/-- Whether an earlier request q comes first by the order of its strand: an LDA before every later access (R171); the units of an
element come one after the other (R216). -/
def Req.orders (q r : Req) : Bool :=
  q.src == r.src && q.slot == r.slot && (q.op.acquires || match q.op, r.op with
    | .move .., .move .. => true
    | _, _ => false)

/-- Whether a write of r's strand to a line of the home that r goes to still loses ownership elsewhere: it is not performed, and r
comes after it (R165, R168). -/
def Req.loses (q r : Req) : Bool :=
  q.src == r.src && q.slot == r.slot && match q.op with
    | .loss w _ c _ => r.goesTo (.line (w * 8) c 0 0)
    | _ => false

/-- Whether an operation that was armed before r, and goes where r goes, still waits for its slot cycle, so that r is not sent yet
(R167, R168). -/
def State.docksBefore (s : State) (r : Req) : Bool := s.net.any fun q => q.docked && s.issuedBefore q r && q.homes.any r.goesTo

/-- Whether an earlier request q comes before r by the order in which their source sends to a home (R167). A strand's later accesses
are not ordered after its core's engines (R177). -/
def Req.leads (q r : Req) : Bool :=
  q.src == r.src && !q.docked && !q.op.parks && (q.slot < 12 || 12 ≤ r.slot) && q.homes.any r.goesTo

/-- The physical addresses of the lines on which a request acts at its homes (R191); an update without a step tag reads STEP (R194). -/
def Req.lines (r : Req) : List Nat :=
  match r.op with
  | .row u => u.units.map (·.1) ++ (if u.tag.isNone && fld (u.desc + 0x18) 52 4 < 3 then [u.desc + 0x18] else [])
  | _ => r.homes.filterMap fun h => match h with | .line pa _ _ _ => some pa | _ => none

/-- Whether request r comes after a request that stands before it in the traffic: by the order of its source to its home (R167), or
by the order of its strand (R168, R171). -/
def State.follows (s : State) (before : List Req) (r : Req) : Bool :=
  s.docksBefore r || (s.net.any fun q => q.loses r) || before.any fun q => q.orders r || (q.leads r && !s.docksBefore q)

/-- Whether request i waits for another request first: by the orders of its source and its strand, the order group of an ordered
atomic (R181), or what its home waits for at the line (R165, R176, R180). A loss notice waits for nothing (R169), and a PREF for no line
(R388). -/
def State.heldBack (s : State) (i : Nat) (r : Req) : Bool :=
  !r.op.isLoss && (s.follows (s.net.take i) r || s.groupHeld r || (r.op != .pref && r.lines.any fun pa => s.lineHeld pa r.rid))

/-- Whether a write of ROUTBASE or DOMLOAD waits for a load in progress (R192, R221). -/
def State.loadBusy (s : State) (r : Req) : Bool :=
  match r.home, r.op with
  | .dev page 0x008, .store .. => (s.part (page - 0x100)).routload != []
  | .dev page 0x010, .store .. => (s.part (page - 0x100)).domload != []
  | _, _ => false

/-- Whether a CINV waits for a page move (R334). -/
def State.pageBusy (s : State) (r : Req) : Bool :=
  match r.home, r.op with
  | .line pa _ _ _, .cinv => fld pa 52 4 == 1 && s.moves.any fun m => m.page == fld pa 16 24
  | _, _ => false

/-- Whether request i, an arbitrated one, may be performed now. -/
def State.canPerform (s : State) (i : Nat) : Bool :=
  match s.net[i]? with
  | none => false
  | some r => r.depart.isNone && (match r.due with | some c => c ≤ s.cycle | none => true) && !s.heldBack i r && !s.loadBusy r && !s.pageBusy r

/-- Gives pending writes of a strand's request their value: the first takes the low bits, a second the next 64 (R322, R368). -/
def State.reply (s : State) (r : Req) (v : Nat) : State :=
  if 12 ≤ r.slot then s
  else s.modStrand r.src r.slot fun t =>
    let (ps, _) := t.pend.foldl (fun (acc : List Pend × Nat) p =>
      if p.rid = r.rid && p.val.isNone then (acc.1 ++ [{ p with val := some (BitVec.ofNat 128 (v / 2 ^ (64 * acc.2))) }], acc.2 + 1)
      else (acc.1 ++ [p], acc.2)) ([], 0)
    { t with pend := ps }

/-- The operation of AMO on n-byte integers (R322). -/
def amoNew (n op old v : Nat) : Nat :=
  let w := 8 * n
  let lt := decide (signed old w < signed v w)
  match op with
  | 0 => (old + v) % 2 ^ w
  | 1 => old &&& v
  | 2 => old ||| v
  | 3 => old ^^^ v
  | 4 => if lt then old else v
  | 5 => if lt then v else old
  | 6 => min old v
  | 7 => max old v
  | _ => v

/-- A load's value extended by its size code (R68). -/
def extendLoad (sz n v : Nat) : Nat :=
  if sz < 3 then (sextW v (8 * n)).toNat else v % 2 ^ (8 * n)

/-- The value that a load gives: raw through window 0, widened through an alias window (R116), or a register. -/
def loadValue (n win sz : Nat) (bs : List Byte) : Nat :=
  if win ≠ 0 then (windowLoad win bs).toNat else if n = 16 then leNat bs else extendLoad sz n (leNat bs)

/-- Whether a home lies in quarantined storage (R278). -/
def State.homeQuarantined (s : State) (h : Home) : Bool :=
  match h with
  | .scratch cn _ | .chip cn _ => s.quarantined cn
  | _ => false

/-- The policy with which a request acts at its line (R142). -/
def Home.pol : Home → Nat
  | .line _ _ p _ => p
  | _ => 0

/-- A read at a home that takes part in the near cache: a normal load fills it (R142). -/
def State.loadAt (s : State) (r : Req) (n hint : Nat) : (List Byte × Bool) × State :=
  let eff := effPolicy r.home.pol hint
  let (v, t) := s.readHome r.home n eff
  match r.home with
  | .line pa cn _ _ => (v, if eff < 2 && !v.2 then t.nearFill r.src cn pa else t)
  | _ => (v, t)

/-- A write at a home with its ownership effects (R169): the words of an engine's write belong to no core. -/
def State.storeAt (s : State) (r : Req) (bs : List Byte) (hint : Nat) : State :=
  (s.writeHome r.home bs (effPolicy r.home.pol hint)).ownAt r.part r.src r.slot
    (if r.slot < 12 then some r.src else none) r.home bs.length r.og

/-- A poisoned read stops the partition (R285); the slot of its record is the strand's, for a ticket the one that issued it. -/
def State.poisonStop (s : State) (r : Req) : State :=
  let pa := match r.home with | .line pa _ _ _ => pa | _ => 0
  s.fatalStop r.part 0x13 r.src (if 16 ≤ r.slot then ((s.core r.src).ticket (r.slot - 16)).issuer else r.slot) r.fpc pa

/-- A strand whose request has been answered with an error: nothing is written for it. -/
def Strand.unanswered (t : Strand) (rid : Nat) : Strand :=
  { t with pend := t.pend.filter fun p => p.rid != rid || p.val.isSome, await := if t.await = some rid then none else t.await }

/-- The home refuses a request (R233, R278, R323, R407): its strand raises the cause at the request's bundle, once the bundle in which
it stands has ended (log 27); an ordered atomic holds the later ones of its group (R181). A ticket's unit leaves the cause to its
element. -/
def State.refuse (s : State) (r : Req) (cause : Nat) : State :=
  if (s.part r.part).status = .fatal then s
  else if 16 ≤ r.slot then s.modCore r.src fun c =>
    let t := c.ticket (r.slot - 16)
    c.setTicket (r.slot - 16) { t with answer := some (t.answer.getD (cause, leBytes 8 r.va.toNat)) }
  else if r.slot < 12 then
    if !(s.strand r.src r.slot).live then s
    else
      let new : FaultRec := { cause := cause, faddr := r.va, fpc := r.fpc }
      (s.modStrand r.src r.slot fun t => { t.unanswered r.rid with
        refusal := some (t.refusal.getD new)
        ordHeld := (match r.og with | some g => [{ og := g, after := r.rid, upto := none }] | none => []) ++ t.ordHeld }).deliverRefusal r.src r.slot
  else s

/-- An ordered atomic has been performed: what waited for it as a replay waits no longer (R181). -/
def State.replayed (s : State) (r : Req) : State :=
  match r.og with
  | none => s
  | some g => s.modStrand r.src r.slot fun t => { t with ordHeld := t.ordHeld.filter fun h => h.og != g || match h.upto with
      | some e => r.rid < e
      | none => true }

/-- An update in one step at a home: the old bytes as a number, and the state with the new ones; the owning core refuses a
user-mode one at its locked handler table (R233, R323). -/
def State.updateAt (s : State) (r : Req) (n : Nat) (f : Nat → Option Nat) : State :=
  if s.lockRefuses r.sup r.home n then s.refuse r 0x07
  else
    let (v, t) := s.readHome r.home n (effPolicy r.home.pol 3)
    if v.2 then t.poisonStop r
    else
      let old := leNat v.1
      let u := match f old with
        | none => t
        | some new => t.storeAt r (leBytes n new) 3
      (u.reply r (if n = 16 then old else (sextW old (8 * n)).toNat)).replayed r

/-- The refused multicast write at one member (R233): counted, with a KIND 11 record. -/
def State.refuseWrite (s : State) (r : Req) (cn off : Nat) : State :=
  let n := (s.core cn).refused + 1
  let pa := 0xC * 2 ^ 52 + 0xFFFF * 2 ^ 36 + cn * 2 ^ 20 + off
  (s.modCore cn fun c => { c with refused := if s.takesRecord r.part 1 then 0 else n }).report r.part [errRecord 11 0x07 cn 0 0 pa n]

/-- The members of a multicast target that the issuer may write: none where the issuer is no member (R131, R220). -/
def State.mcastMembers (s : State) (cn die dom : Nat) : List Nat :=
  match s.dom? die dom with
  | none => []
  | some d =>
    let partner := d.paired && match s.dom? (1 - die) d.pair with
      | some e => e.has (1 - die) cn
      | none => false
    if d.has die cn || partner then d.members die else []

/-- Whether a request is a unit of a running element, for which its locked tables were judged when the element started, since a
refused element writes nothing (R233; log 8). A unit of an armed PUT is marked, by hint 4, when its element's first unit arrives. -/
def Req.judged (r : Req) : Bool :=
  16 ≤ r.slot && (r.depart.isNone || match r.op with
    | .store _ hint _ => hint == 4
    | _ => false)

/-- A store reaches its home (R165, R169, R406); a locked handler table refuses a user-mode one (R233), and a device register acts
as R286 states. -/
def State.performStore (s : State) (i : Nat) (r : Req) (bs : List Byte) (hint : Nat) (multicast : Bool) : State :=
  let s1 := s.dropReq i
  match r.home with
  | .dev page off =>
    let who := some (r.src, r.rid)
    let t := s1.writePartPage (page - 0x100) off (leNat bs) who
    if off = 0x008 || off = 0x010 then { t with net := s.net } else t
  | .scratch cn off =>
    if r.judged || !s1.lockRefuses r.sup r.home bs.length then s1.storeAt r bs hint
    else if multicast then s1.refuseWrite r cn off
    else s1.refuse r 0x07
  | _ => s1.storeAt r bs hint

/-- Writes one unit of an engine at a home: no core owns the words afterwards (log 21). A multicast one is written at every member
but at quarantined ones and locked tables (R131, R233, R278). -/
def State.putUnit (s : State) (r : Req) (h : Home) (bs : List Byte) : State :=
  match h with
  | .mcast die dom off => (s.mcastMembers r.src die dom).foldl (fun t m =>
      if t.quarantined m then t
      else if t.lockRefuses r.sup (.scratch m off) bs.length then t.refuseWrite r m off
      else t.writeHome (.scratch m off) bs 0) s
  | _ => ((s.countAt r.src h).writeHome h bs (effPolicy h.pol 0)).ownAt r.part r.src r.slot none h bs.length

/-- Moves units one after the other, each read and then written (R216); poison stops the partition. -/
def State.moveUnits (s : State) (r : Req) : List (Home × Home) → State
  | [] => s
  | (g, h) :: us =>
    let (v, t) := (s.countAt r.src g).readHome g 16 (effPolicy g.pol 0)
    if v.2 then t.poisonStop { r with home := g } else (t.putUnit r h v.1).moveUnits r us

/-- The units of a request are moved; those that make up a whole line clear its poison (R285). A quarantined home on either side
refuses them (R278). -/
def State.performMove (s : State) (r : Req) (us : List (Home × Home)) (to_ : Word) : State :=
  if us.any fun u => s.homeQuarantined u.1 then s.refuse r 0x14
  else if us.any fun u => s.homeQuarantined u.2 then s.refuse { r with va := to_ } 0x14
  else (s.moveUnits r us).cleanLines (us.map (·.2))

/-- Performs a request r that lies at index i. A quarantined home answers with cause 0x14 (R278). -/
def State.perform (s0 : State) (i : Nat) (r : Req) : State :=
  let s := match r.op with
    | .move .. => s0
    | _ => s0.countAt r.src r.home
  let s1 := s.dropReq i
  if s.homeQuarantined r.home then s1.refuse r 0x14
  else match r.op with
    | .load n win sz hint =>
      match r.home with
      | .dev page off => s1.reply r (s1.readPartPage (page - 0x100) off)
      | _ =>
        let (v, t) := s1.loadAt r n hint
        if v.2 then t.poisonStop r else t.reply r (loadValue n win sz v.1)
    | .loadAcq n sz scope =>
      let (v, t) : (List Byte × Bool) × State := match r.home with
        | .dev page off => ((leBytes 8 (s1.readPartPage (page - 0x100) off), false), s1)
        | _ => s1.loadAt r n 3
      if v.2 then t.poisonStop r
      else ((t.reply r (extendLoad sz n (leNat v.1))).acquire r.src scope).modStrand r.src r.slot fun u =>
        { u with await := if u.await = some r.rid then none else u.await }
    | .store bs hint multicast => s.performStore i r bs hint multicast
    | .move us to_ => s1.performMove r us to_
    | .amo n op v => s1.updateAt r n fun old => some (amoNew n op old v)
    | .cas n c v => s1.updateAt r n fun old => if old = c then some v else none
    | .cflush => match r.home with
      | .line pa cn _ _ => s1.writeBack (lineKey cn pa)
      | _ => s1
    | .cinv => match r.home with
      | .line pa cn _ _ =>
        let now := coreInCluster (clusterOfPc (s1.pcOf pa)) (h5 pa)
        let s2 := s1.dropLine (lineKey cn pa)
        (if fld pa 52 4 = 1 then s2.dropLine (lineKey now pa) else s2).modCore r.src fun c =>
          { c with near := c.near.filter fun w => w.1 / 16 != pa / 128 }
      | _ => s1
    | .pref => match r.home with
      | .line pa cn pol _ => if s1.lineHeld pa s1.nextRid then s1 else s1.fill cn pa pol
      | _ => s1
    | .ship op v false => match r.home with
      | .line pa cn _ _ =>
        let t := (s.writeBack (lineKey cn pa)).dropLine (lineKey cn pa)
        { t with net := t.net.set i { r with op := .ship op v true, depart := some 0 } }
      | _ => s1
    | _ => s

/-- The first unit of an armed PUT's element arrives: its targets judge the whole element, since a refused one has no effect (R213,
R233). Another device's answer is a free choice. The result is the refusal, or the state with the element's units marked. -/
def State.judgeElement (s : State) (r : Req) : State × Bool :=
  let at_ (q : Req) : Nat := (q.va - ((s.core r.src).ticket (r.slot - 16)).xa).toNat / 4096
  let same (q : Req) : Bool := q.src == r.src && q.slot == r.slot && q.depart.isSome && at_ q == at_ r
  let locked (q : Req) : Bool := same q && match q.op with
    | .store bs _ false => s.lockRefuses q.sup q.home bs.length
    | _ => false
  let far (q : Req) : Bool := same q && q.home.far
  let (no, t) := if s.net.any far then s.farRefuses (.remoteMcast 0) else (false, s)
  let drop (u : State) : State := { u with net := u.net.filter fun q => !same q }
  let mark (q : Req) : Req := match q.op with
    | .store bs _ false => if same q then { q with op := .store bs 4 false } else q
    | _ => q
  match s.net.find? locked, s.net.find? far with
  | some q, _ => ((drop s).refuse q 0x07, true)
  | none, some q => if no then ((drop t).refuse q 0x14, true) else ({ t with net := t.net.map mark }, false)
  | none, none => ({ t with net := t.net.map mark }, false)

/-- A request is performed where it goes. Whether a core of another device is quarantined is that device's matter: its answer may be
the error of R278. An element asks that of its units when it starts (R213). -/
def State.performAt (s : State) (i : Nat) (r : Req) : State :=
  let unit := match r.op with
    | .move .. => true
    | _ => false
  if 16 ≤ r.slot && r.depart.isSome then
    let (t, refused) := if r.judged then (s, false) else s.judgeElement r
    if refused then t else t.perform i ((t.net[i]?).getD r)
  else if unit || !r.homes.any Home.far then s.perform i r
  else
    let (k, t) := s.choose 2
    if k = 0 then t.perform i r else (t.dropReq i).refuse r 0x14

/-- HOME_ACCESS (R166): request i is performed if it may be. -/
def State.homeAccess (s : State) (i : Nat) : State :=
  if !s.canPerform i then s
  else match s.net[i]? with
    | none => s
    | some r => s.performAt i r

end Sys2Proof.Machine
end

