-- ==== Sys2Proof/Machine/Tasks.lean ====
section
/-! DEFINITION. Task records and run lists (R40 to R46): what the home core does with TASK requests, decrements and aging. -/
namespace Sys2Proof.Machine

/-- Replaces bits [lo+len-1 : lo] of a number. -/
def setFld (n lo len v : Nat) : Nat := n - fld n lo len * 2 ^ lo + v % 2 ^ len * 2 ^ lo

/-- A task record as a 256-bit number (R40). -/
def State.taskRec (s : State) (cn off : Nat) : Nat := leNat (s.mem.readN (scratchKey cn off) 32)

/-- Writes a task record. -/
def State.setTaskRec (s : State) (cn off v : Nat) : State :=
  { s with mem := s.mem.writeN (scratchKey cn off) (leBytes 32 v) }

/-- Fields of a task record (R40). -/
def recState (r : Nat) : Nat := fld r 181 2
def recSup (r : Nat) : Bool := bit r 178
def recPrio (r : Nat) : Nat := fld r 176 2
def recCounter (r : Nat) : Nat := fld r 160 16
def recTaskNo (r : Nat) : Nat := fld r 128 32
def recArg (r : Nat) : Nat := fld r 64 64
def recEntry (r : Nat) : Nat := fld r 0 56

/-- The global scratchpad address of a byte of a core of this device (R129). -/
def globalScratch (cn off : Nat) : Nat := 0xC * 2 ^ 52 + 0xFFFF * 2 ^ 36 + cn * 2 ^ 20 + off

/-- A task handle (R41). -/
def taskHandle (taskNo off cn : Nat) : Word := BitVec.ofNat 64 (taskNo * 2 ^ 32 + off * 2 ^ 16 + cn)

/-- Writes LINK of the records of one level from the list order (R40). -/
def State.relink (s : State) (cn : Nat) : List (Nat × Nat) → State
  | [] => s
  | (a, _) :: rest =>
    let next := match rest with
      | [] => 0xFFFF
      | (b, _) :: _ => b / 32
    (s.setTaskRec cn a (setFld (s.taskRec cn a) 192 16 next)).relink cn rest

/-- A record enters the tail of a level: STATE QUEUED, LEVEL and STAMP (R42, R43, R45). -/
def State.enqueue (s : State) (cn off level : Nat) : State :=
  let r := s.taskRec cn off
  let r1 := setFld (setFld (setFld r 181 2 2) 179 2 level) 224 32 (s.cycle / 2 ^ 16)
  let s1 := (s.setTaskRec cn off r1).modCore cn fun c =>
    { c with runList := c.runList.setIfInBounds level (c.level level ++ [(off, s.cycle)]) }
  s1.relink cn ((s1.core cn).level level)

/-- The record that a TASK specification of 24 bytes describes (R42). -/
def newRecord (spec : List Byte) : Nat :=
  let entry := leAt spec 0 8 % 2 ^ 56
  let arg := leAt spec 8 8
  let no := leAt spec 0x10 4
  let counter := leAt spec 0x14 2
  let bits := leAt spec 0x16 2
  entry + arg * 2 ^ 64 + no * 2 ^ 128 + counter * 2 ^ 160 + fld bits 0 2 * 2 ^ 176 + fld bits 2 1 * 2 ^ 178 +
    fld bits 0 2 * 2 ^ 179 + 1 * 2 ^ 181 + 0xFFFF * 2 ^ 192

/-- TASK_REQUEST (R42): the home core checks the record, writes it, queues the task when its counter is zero, and answers. -/
def State.taskRequest (s : State) (i : Nat) : State :=
  if !s.canPerform i then s
  else match s.net[i]? with
    | none => s
    | some r =>
      match r.op, r.home with
      | .task off spec _, .scratch cn _ =>
        let answer (t : State) (h : Word) (f : Option (Nat × Word)) : State :=
          { t with net := t.net.set i { r with op := .taskAck h f, home := .owner (0x20000 + r.src) } }
        if s.quarantined cn then s.dropReq i
        else
          let st := recState (s.taskRec cn off)
          if st = 1 || st = 2 then answer s 0 (some (0x07, BitVec.ofNat 64 (globalScratch cn off)))
          else
            let rec_ := newRecord spec
            let s1 := s.setTaskRec cn off (setFld rec_ 224 32 (s.cycle / 2 ^ 16))
            let s2 := if recCounter rec_ = 0 then s1.enqueue cn off (recPrio rec_) else s1
            answer s2 (taskHandle (recTaskNo rec_) off cn) none
      | _, _ => s

/-- Turns the wait on a request into its answer. -/
def State.answerHold (s : State) (cn slot rid : Nat) (v : Word) (f : Option (Nat × Word)) : State :=
  let one (h : Addr × Hold) : Addr × Hold := if h.2 == .reply rid then (h.1, .replied v f) else h
  s.modStrand cn slot fun t => { t with holds := t.holds.map one }

/-- Whether a write made for a slot of a core still loses ownership elsewhere, so that it is not performed (R165). -/
def State.lossesOf (s : State) (cn slot : Nat) : Bool :=
  s.net.any fun q => q.src == cn && q.slot == slot && match q.op with
    | .loss .. => true
    | _ => false

/-- The answer to a request whose writes must be performed first (R165). -/
def State.answerAfter (s : State) (r : Req) (v : Word) (f : Option (Nat × Word)) : State :=
  if s.lossesOf r.src r.slot then { s with net := s.net ++ [{ r with op := .taskAck v f, home := .owner (0x20000 + r.src) }] }
  else s.answerHold r.src r.slot r.rid v f

/-- TASK_ACK (R42): the acknowledgement or refusal reaches the issuing strand. -/
def State.taskAck (s : State) (i : Nat) : State :=
  if !s.canPerform i then s
  else match s.net[i]? with
    | none => s
    | some r =>
      match r.op with
      | .taskAck h f => if s.lossesOf r.src r.slot then s else (s.dropReq i).answerHold r.src r.slot r.rid h f
      | _ => s

/-- A discarded decrement sets TERR (R43, R46). -/
def State.lostDecrement (s : State) (cn : Nat) : State :=
  s.modCore cn fun c => { c with regs := { c.regs with lost := true, lostCnt := min 0xFFFF (c.regs.lostCnt + 1) } }

/-- DECREMENT (R43): a posted decrement takes effect at the home core, or is discarded. -/
def State.decrement (s : State) (i : Nat) : State :=
  if !s.canPerform i then s
  else match s.net[i]? with
    | none => s
    | some r =>
      match r.op, r.home with
      | .decr h, .scratch cn _ =>
        let s1 := s.dropReq i
        let off := fld h.toNat 16 16
        let t := s1.taskRec cn off
        if s.quarantined cn then s1
        else if off % 32 ≠ 0 || recTaskNo t ≠ fld h.toNat 32 32 || recState t ≠ 1 then s1.lostDecrement cn
        else
          let c := (recCounter t + 0xFFFF) % 2 ^ 16
          let s2 := s1.setTaskRec cn off (setFld t 160 16 c)
          if c = 0 then s2.enqueue cn off (recPrio t) else s2
      | _, _ => s

/-- Whether a queued record of a level has stood its time (R45). -/
def State.aged (s : State) (e : Nat × Nat) : Bool := e.2 + 65536 ≤ s.cycle

/-- The records of a level that have stood their time move to the tail of the next level (R45). -/
def State.ageLevel (s : State) (cn l : Nat) : State :=
  let old := (s.core cn).level l
  let moved := old.filter s.aged
  if moved.isEmpty then s
  else
    let kept := old.filter fun e => !s.aged e
    let s1 := s.modCore cn fun c => { c with runList := c.runList.setIfInBounds l kept }
    moved.foldl (fun t e => t.enqueue cn e.1 (l + 1)) (s1.relink cn kept)

/-- TASK_AGING (R45): level 2 first, so that a task moves one level. -/
def State.taskAging (s : State) (cn : Nat) : State := ((s.ageLevel cn 2).ageLevel cn 1).ageLevel cn 0

/-- Whether aging is due at a core; the records of a saved partition stand still (R281), and those of a fatally stopped one lie in
quarantined scratchpads (R278). -/
def State.agingDue (s : State) (cn : Nat) : Bool :=
  (s.partFor cn).status != .saved && (s.partFor cn).status != .fatal && (List.range 3).any fun l => ((s.core cn).level l).any s.aged

/-- The highest level that holds a task (R44). -/
def Core.topLevel (c : Core) : Option Nat := [3, 2, 1, 0].find? fun l => !(c.level l).isEmpty

end Sys2Proof.Machine
end

