-- ==== Sys2Proof/Machine/Events.lean ====
section
/-! DEFINITION. What happens at the cores and networks without an instruction: messages and the handler strand (R231 to
R234, R273, R212), barrier completion and exchange phases (R222 to R226, R179), loss notices (R169), register write-back
and the divider (R257), the watchdog (R276). An event that is not due leaves the state as it is. -/
namespace Sys2Proof.Machine

/-! ### Messages -/

/-- Wakes the strands of a core that wait in IDLE (R361). -/
def Core.wakeIdle (c : Core) : Core :=
  let one (h : Addr × Hold) : Addr × Hold := if h.2 == .idle then (h.1, .woken) else h
  { c with strands := c.strands.map fun t => { t with holds := t.holds.map one } }

/-- The containment pair of a refused message (R231, R292). -/
def containment (m : Msg) : List (List Byte) :=
  [errRecord 2 0x0A m.srcCn (m.srcDev * 2 ^ 16 + m.payload.length) m.target.toNat (m.word 0) (m.word 1),
   errRecord 10 0 0 0 (m.word 2) (m.word 3) 0]

/-- Takes a message at its target core (R231, R234, R278). For a partition that is SAVED no rule says what becomes of it: it enters
the inbox, which the restore replaces (DESIGN CHOICE, log 76). -/
def State.deliver (s : State) (srcPart : Nat) (m0 : Msg) : State :=
  let m := { m0 with arrived := s.cycle }
  let cn := m.cn
  let key := (s.partFor cn).key
  let cap := fld m.target.toNat 48 16
  if s.quarantined cn then s.divert 3 m
  else if cap ≠ key || key = 0 then (s.divert 1 m).report srcPart (containment m)
  else if (s.core cn).inbox.length < 16 && (s.core cn).heldIn.isEmpty then
    s.modCore cn fun c => { c with inbox := c.inbox ++ [m] }.wakeIdle
  else s.modCore cn fun c => { c with heldIn := c.heldIn ++ [m] }

/-- A message reaches its target (R231), on this device or on another (R238). Whether another device refuses it is that device's
matter, a free choice; a refusal's containment pair goes to the sending partition's error queue here (R231, R292). -/
def State.sendArrives (s : State) (i : Nat) (r : Req) (m : Msg) : State :=
  let s1 := s.dropReq i
  if r.home.far then
    let (k, t) := s1.choose 2
    if k = 1 then t.report r.part (containment m) else t
  else if s.portFull m.cn then s
  else s1.deliver r.part m

/-- MESSAGE_ARRIVAL (R231): request i is a message that reaches its target. -/
def State.messageArrival (s : State) (i : Nat) : State :=
  if !s.canPerform i then s
  else match s.net[i]? with
    | none => s
    | some r =>
      match r.op with
      | .send m => s.sendArrives i r m
      | _ => s

/-- HELD_MESSAGE_ACCEPT (R234): the oldest message held at the port enters the inbox. -/
def State.heldAccept (s : State) (cn : Nat) : State :=
  let c := s.core cn
  match c.heldIn with
  | [] => s
  | m :: r => if c.inbox.length < 16 then s.setCore cn { c with inbox := c.inbox ++ [m], heldIn := r }.wakeIdle else s

/-! ### The handler strand -/

/-- The lowest suspended strand whose entry has not started (R51); its bundle has ended (R39). -/
def Core.waitingFault (c : Core) : Option (Nat × FaultRec) :=
  (List.range 11).findSome? fun i =>
    let t := c.strand i
    match t.susp with
    | some r => if t.live && !t.inEntry && t.rest.isEmpty then some (i, r) else none
    | none => none

/-- The lowest ticket slot whose fault entry has not started (R212). -/
def Core.waitingTicket (c : Core) : Option Nat := findBelow 64 fun n => (c.ticket n).live && (c.ticket n).entryWaits

/-- Whether a SAMPLE is in progress at a core (R267): from its issue until its record store is sent. -/
def Core.samples (c : Core) : Bool :=
  c.strands.toList.any fun t => t.holds.any fun h => match h.2 with | .sample _ => true | _ => false

/-- Whether the cores of a core's partition take entries (R267, R277, R280): the partition runs, or has a phase open and is not yet
halted (R223), and no SAMPLE is in progress. -/
def State.entriesOpen (s : State) (cn : Nat) : Bool :=
  match s.partOf? cn with
  | none => false
  | some p => ((s.part p).status == .running || ((s.part p).status == .stopping && s.phaseOpen p)) && !(s.core cn).samples

/-- FAULT_ENTRY (R273). -/
def State.faultEntry (s : State) (cn : Nat) : State :=
  let c := s.core cn
  match c.waitingFault with
  | some (slot, r) => if c.handlerEmpty && s.entriesOpen cn then s.setCore cn (c.enterFault slot r) else s
  | none => s

/-- TICKET_FAULT_ENTRY (R212): after the waiting strand entries. -/
def State.ticketFaultEntry (s : State) (cn : Nat) : State :=
  let c := s.core cn
  match c.waitingFault, c.waitingTicket with
  | none, some n => if c.handlerEmpty && s.entriesOpen cn then s.setCore cn (c.enterTicket n (c.ticket n)) else s
  | _, _ => s

/-- The start-up registers of a message run (R232). -/
def Strand.loadMessage (t : Strand) (m : Msg) : Strand :=
  (List.range 4).foldl (fun u i => u.setX (20 + i) (BitVec.ofNat 64 (m.word i)))
    (t.setX 24 (BitVec.ofNat 64 (m.srcDev * 2 ^ 16 + m.srcCn)))

/-- HANDLER_START (R232): the oldest inbox message starts the handler at its table entry, or is diverted. -/
def State.handlerStart (s : State) (cn : Nat) : State :=
  let c := s.core cn
  match c.inbox with
  | [] => s
  | m :: r =>
    if !(c.handlerEmpty && s.entriesOpen cn && c.waitingFault.isNone && c.waitingTicket.isNone) then s
    else
      let s1 := s.setCore cn { c with inbox := r }
      let htab := c.regs.htab.toNat
      let e := leNat (s.mem.readN (scratchKey cn (fld htab 0 16 + 8 * fld m.target.toNat 32 4)) 8)
      let sup := bit e 62
      if !bit e 63 || fld e 0 2 ≠ 0 || (sup && !bit htab 63) then s1.divert 2 m
      else s1.modCore cn fun d =>
        let d1 := d.startHandler (BitVec.ofNat 56 e) sup .message
        d1.setStrand 11 ((d1.strand 11).loadMessage m)

/-! ### Barriers and phases -/

/-- Whether every member of an instance has arrived (R222), with no phase open at a member of a scheduled one (R224). -/
def State.instanceFull (s : State) (die dom : Nat) : Bool :=
  let ds := s.instanceOf die dom
  !ds.isEmpty && ds.all fun x => (x.2.2.members x.1).all fun cn =>
    x.2.2.arrived.contains cn && !(x.2.2.sched && (s.core cn).phase.isSome)

/-- Releases the strands of a core that wait at an instance, with the acquire at die scope (R222, R326). -/
def Core.release (c : Core) (die dom : Nat) (all any : Bool) : Core :=
  let one (h : Addr × Hold) : Addr × Hold :=
    match h.2 with
    | .barrier x y _ => if x = die && y = dom then (h.1, .released all any) else h
    | _ => h
  { c with strands := c.strands.map fun t => { t with holds := t.holds.map one } }

/-- Opens the phase of a core at cycle B (R224). -/
def Core.openPhase (c : Core) (dom : Nat) (d : Domain) (b : Nat) : Core :=
  if d.sched then
    { c with
      phase := some { dom := dom, f := d.count % d.nphase, b := b, nslot := d.nslot, owned := (getKey c.slotMap dom).getD [] }
      slotMap := delKey c.slotMap dom }
  else c

/-- BARRIER_COMPLETE (R223): one cycle B for every member of the instance, the next one: the strands that wait are ready from it. -/
def State.barrierComplete (s : State) (die dom : Nat) : State :=
  if !s.instanceFull die dom then s
  else
    let ds := s.instanceOf die dom
    let votes := ds.flatMap fun x => x.2.2.votes
    let all := votes.all id
    let any := votes.any id
    ds.foldl (fun t x =>
      let (e, k, d) := x
      let t1 := (d.members e).foldl (fun u cn =>
        (u.modCore cn fun c => (c.release e k all any).openPhase k d (s.cycle + 1)).acquire cn 3) t
      { t1 with doms := putKey t1.doms (e * 64 + k) { d with count := d.count + 1, arrived := [], votes := [] } }) s

/-- Whether the open phase of a core has run out (R224). -/
def State.phaseOver (s : State) (cn : Nat) : Bool :=
  match (s.core cn).phase with
  | none => false
  | some p => p.b + 16 + p.nslot ≤ s.cycle

/-- PHASE_CLOSE (R224, R225): arms are discarded. -/
def State.phaseClose (s : State) (cn : Nat) : State :=
  if s.phaseOver cn then
    s.modCore cn fun c => { c with phase := none, strands := c.strands.map fun t => { t with arm := none } }
  else s

/-- The cycle of slot n of an open phase (R224). -/
def Phase.slotCycle (p : Phase) (n : Nat) : Nat := p.b + 16 + n

/-- SLOT_ARM (R225): the wait of a SLOT reaches its arming cycle. -/
def State.slotArm (s : State) (cn slot : Nat) : State :=
  match (s.core cn).phase with
  | none => s
  | some p =>
    let one (h : Addr × Hold) : Addr × Hold :=
      match h.2 with
      | .slot n => if p.slotCycle n ≤ s.cycle + 22 then (h.1, .armed) else h
      | _ => h
    s.modStrand cn slot fun t => { t with holds := t.holds.map one }

/-- Whether a strand waits for an arming cycle that has come. -/
def State.slotDue (s : State) (cn slot : Nat) : Bool :=
  match (s.core cn).phase with
  | none => false
  | some p => (s.strand cn slot).holds.any fun h => match h.2 with
    | .slot n => p.slotCycle n ≤ s.cycle + 22
    | _ => false

/-- The port at which a scheduled request arrives: a core's, or the agent that takes its accesses (R228). -/
def Home.port (h : Home) : Nat :=
  match h with
  | .scratch cn _ => cn
  | _ => 2 ^ 17 + h.agent

/-- The core by which the way of a scheduled request is told. -/
def Req.targetCore (r : Req) : Nat := (r.home.core).getD r.src

/-- Whether a home is a scratchpad of this device, where scheduled traffic has its cycle: only writes to regions 0x0 to 0x2 are
performed without one (R226, R390). -/
def Home.scheduled (h : Home) : Bool :=
  match h with
  | .scratch .. | .chip .. => true
  | _ => false

/-- Whether two transfers collide (R228): they depart in one slot cycle from two cores, and share a target port or a link (log 48). -/
def Req.collides (r q : Req) : Bool :=
  q.depart == r.depart && q.due.isSome && q.src != r.src &&
    (q.home.port == r.home.port || Config.linkShared q.src q.targetCore r.src r.targetCore)

/-- Counts a colliding transfer once for its die, with its issuer (R228, R292). -/
def State.countCollision (s : State) (r : Req) (l : Nat) : State :=
  if s.net.any fun q => q.src == r.src && q.depart == r.depart && (match q.due with | some c => l < c | none => false) then s
  else
    let d := dieOf r.src
    s.modPart r.part fun x => { x with
      collisions := x.collisions.setIfInBounds d ((x.collisions[d]?.getD 0) + 1)
      colliders := x.colliders.setIfInBounds d r.src }

/-- A request leaves in its slot cycle: from now on it stands behind what its source has sent, and before the strand's later requests
to its home, which waited for it (R167, R168). -/
def State.departNow (s : State) (i : Nat) (r : Req) (due : Nat) : State :=
  let u : Req := { r with due := some due }
  let rest := s.net.eraseIdx i
  let mine (q : Req) : Bool := !q.armed && s.issuedBefore r q && r.homes.any q.goesTo
  { s with net := rest.filter (fun q => !mine q) ++ [u] ++ rest.filter mine }

/-- SCHEDULED_DEPARTURE (R226, R228, R390): the held operation departs in its slot cycle c, and a transfer to a scratchpad of this
device is performed 24 or 40 cycles later. One to another home has no fixed cycle, and one that collides is delivered later: by how
much is open (log 22, log 48). A collision is counted. -/
def State.scheduledDeparture (s : State) (i : Nat) : State :=
  match s.net[i]? with
  | none => s
  | some r =>
    match r.depart, r.due with
    | some c, none =>
      if s.cycle < c || (match r.op with | .ship .. => true | _ => false) then s
      else
        let l := c + (if dieOf r.src = dieOf r.targetCore then 24 else 40)
        let hit := s.net.any r.collides
        let t := if hit then s.countCollision r l else s
        if hit || !r.home.scheduled then
          { t with choices := t.choices + 1 }.departNow i r
            ((if r.home.scheduled then l else c) + 1 + Config.choice t.choices)
        else t.departNow i r l
    | _, _ => s

/-- Whether a scheduled request is due to arrive. -/
def State.arrivalDue (s : State) (r : Req) : Bool :=
  r.depart.isSome && match r.due with | some c => c ≤ s.cycle | none => false

/-! ### Ownership, write-back, divider -/

/-- The store's acknowledgement (R169): when no loss of a line's words is outstanding for the core that takes them, its near cache
takes those that it owns, as they stand. -/
def State.takeCopies (s : State) (w homeCn : Nat) (taker : Option Nat) : State :=
  match taker with
  | none => s
  | some c =>
    let open_ := s.net.any fun q => match q.op with
      | .loss v _ _ k => v / 16 == w / 16 && k == some c
      | _ => false
    let mine := ((List.range 16).map (w / 16 * 16 + ·)).filter fun v => getKey s.owner v == some c
    if open_ then s else s.nearOwn c homeCn mine

/-- LOSS_NOTICE (R169): the former owner clears its owned mark, unless it owns the word again, and acknowledges. -/
def State.lossNotice (s : State) (i : Nat) : State :=
  if !s.canPerform i then s
  else match s.net[i]? with
    | none => s
    | some r =>
      match r.op with
      | .loss w cn home taker =>
        let s1 := s.dropReq i
        let s2 := if getKey s1.owner w = some cn then s1
          else match getKey (s1.core cn).near w with
            | none => s1
            | some x => s1.modCore cn fun c => { c with near := putKey c.near w { x with owned := false } }
        s2.takeCopies w home taker
      | _ => s

/-- Whether a pending write is made when its value comes: an interlocked one, or a counted one whose turns have passed (R257). -/
def Pend.lands (p : Pend) : Bool := p.val.isSome && (p.turns.isNone || p.turns == some 0)

/-- REGISTER_WRITEBACK (R257, R324, R370): pending write i has its value and is written, or pushed through a claimed port. -/
def State.registerWriteback (s : State) (cn slot i : Nat) : State :=
  let t := s.strand cn slot
  match t.pend[i]? with
  | none => s
  | some p =>
    if !p.lands then s
    else
      let v := p.val.getD 0
      let done (u : Strand) : Strand := { u with
        pend := u.pend.eraseIdx i
        await := if u.await = some p.rid then none else u.await }
      let port := match p.reg with
        | .v r => if 12 ≤ r && !isDense cn && (s.core cn).regs.claim = some slot then some (r - 12) else none
        | _ => none
      match port with
      | some k =>
        let s1 := { s with cur := { s.cur with cn := cn, slot := slot } }
        if s1.pushFull k then s
        else { (s1.push k { tag := false, val := v }) with cur := s.cur }.modStrand cn slot done
      | none => s.modStrand cn slot fun u => (match p.reg with | .v _ => done u | _ => { u with pend := u.pend.eraseIdx i }).land p v

/-- Whether the divider of a strand has ended its occupancy (R257). -/
def State.dividerDue (s : State) (cn slot : Nat) : Bool :=
  let t := s.strand cn slot
  t.divFree != 0 && t.divFree ≤ s.cycle

/-- DIVIDER_RELEASE (R257). -/
def State.dividerRelease (s : State) (cn slot : Nat) : State :=
  if s.dividerDue cn slot then s.modStrand cn slot fun t => { t with divFree := 0 } else s

/-- Whether a strand's count has reached the limit (R276). -/
def State.watchdogDue (s : State) (cn slot : Nat) : Bool :=
  let limit := (s.core cn).regs.wdog.toNat % 2 ^ 32
  let t := s.strand cn slot
  limit != 0 && t.live && limit * 1024 ≤ t.notReady && s.mayIssue cn slot

/-- WATCHDOG (R276): the partition takes the fatal fault 0x12. -/
def State.watchdog (s : State) (cn slot : Nat) : State :=
  if s.watchdogDue cn slot then s.fatalStop (s.partNo cn) 0x12 cn slot (s.strand cn slot).pc 0 else s

end Sys2Proof.Machine
end

