-- ==== Sys2Proof/Machine/Memory.lean ====
section
/-! DEFINITION. Loads, stores, atomics, fences and cache words of MAJ 0x10 to 0x16 (R68, R82 to R84, R131, R169 to R173,
R226, R322 to R324, R332 to R335, R353, R366 to R370, R388, R406 to R408). -/
namespace Sys2Proof.Machine

/-! ### Addresses and targets -/

/-- The bytes of a size code (R68). -/
def szBytes (z : Nat) : Nat :=
  match z with
  | 0 | 4 => 1
  | 1 | 5 => 2
  | 2 | 6 => 4
  | 7 => 16
  | _ => 8

/-- A base register plus a signed offset of some bits, scaled. -/
def State.ea (s : State) (a : BitVec 5) (off bits n : Nat) : Word := s.x a + sextW off bits * BitVec.ofNat 64 n

/-- Whether a target is the scratchpad of a core other than cn through region 0xC, or region 0xD (R226). -/
def Target.exchanged (g : Target) (cn : Nat) : Bool :=
  g.region == 0xD || g.region == 0xC && (match g.home with | .scratch c _ => c != cn | _ => true)

/-- A refusal with its address, or a value. -/
abbrev Checked (α : Type) := Except (Nat × Word) α

/-- Whether an access of the executing strand lies in region 0xF, which takes 8 bytes only, whatever register it names (R286, R367). -/
def State.deviceSpace (s : State) (rd wr : Bool) (va : Word) : Bool :=
  (s.paOf (s.access rd wr) va).any fun pa => fld pa 52 4 == 0xF

/-- The target of a scalar access of n bytes: alignment, translation, region and window, in the order of R366. -/
def State.scalarTarget (s : State) (rd wr : Bool) (va : Word) (n : Nat) : Checked Target × State :=
  if va.toNat % n ≠ 0 then (.error (0x04, va), s)
  else match s.resolve (s.access rd wr) va n with
    | (.error c, t) =>
      if c = 0x07 && n ≠ 8 && s.deviceSpace rd wr va then (.error (0x04, va), t)
      else (.error (c, if c = 0x03 then 0 else va), t)
    | (.ok g, t) =>
      if g.win ≠ 0 then (.error (0x07, va), t)
      else match g.home with
        | .dev _ _ => if n = 8 then (.ok g, t) else (.error (0x04, va), t)
        | _ => (.ok g, t)

/-- Whether a translation has failed, so that no physical address shows a window. -/
def walkFails (cause : Nat) : Bool := cause = 0x05 || cause = 0x06 || cause % 2 ^ 8 = 0x13 || cause = heldCause

/-- The raw bytes of an LDV or STV at an address: those of the window that its physical address shows (R116, R366, R370), else 16. -/
def State.vectorBytes (s : State) (rd wr : Bool) (va : Word) : Nat :=
  match s.paOf (s.access rd wr) va with
  | some pa => if fld pa 52 4 = 0xC then windowBytes (fld pa 16 4) else 16
  | none => if va.toNat < 0x80000 then windowBytes (fld va.toNat 16 3) else 16

/-- The target of LDV or STV (R366, R370): the alignment comes first, by the window that the address shows. A page that may yet be
committed shows none, and is asked for first (log 23). -/
def State.vectorTarget (s : State) (rd wr : Bool) (va : Word) : Checked Target × State :=
  if va.toNat % 4 ≠ 0 then (.error (0x04, va), s)
  else match s.resolve (s.access rd wr) va 16 with
    | (.error c, t) =>
      (.error (
        if walkFails c then (c, va)
        else if va.toNat % s.vectorBytes rd wr va ≠ 0 || (c = 0x07 && s.deviceSpace rd wr va) then (0x04, va)
        else (c, if c = 0x03 then 0 else va)), t)
    | (.ok g, t) =>
      if va.toNat % windowBytes g.win ≠ 0 then (.error (0x04, va), t)
      else match g.home with
        | .dev _ _ => (.error (0x04, va), t)
        | _ => (.ok g, t)

/-! ### Sending requests -/

/-- Whether a home is the core's own scratchpad. -/
def Home.own (h : Home) (cn : Nat) : Bool :=
  match h with
  | .scratch c _ => c == cn
  | _ => false

/-- Whether an operation is an access to memory: a message is none (R230). -/
def ReqOp.accesses : ReqOp → Bool
  | .send _ => false
  | _ => true

/-- Sends a request of the executing strand; an access to the core's own scratchpad is performed in the next cycle (R179). -/
def State.sendTo (s : State) (h : Home) (op : ReqOp) (va : Word) (og : Option Nat) (depart : Option Nat) : State :=
  s.send [{ s.request h op va with
    og := og
    depart := depart
    due := if h.own s.cur.cn && depart.isNone && op.accesses then some (s.cycle + 1) else none }]

/-- The registers that take a request's reply; a load of the own scratchpad has latency 3 in an exposed region (R257). -/
def State.pendOn (s : State) (rid : Nat) (rs : List Reg) (fast : Bool) : State :=
  let turns := if fast && s.myCore.regs.exposed then some (2 + s.cur.turn) else none
  s.modMe fun t => { t with pend := t.pend ++ rs.map fun r => { reg := r, rid := rid, val := none, turns := turns } }

/-- How an exchange operation may leave (R226, R227). -/
inductive Leave where
  /-- Arbitrated. -/
  | free
  /-- Armed for slot n, which is a cycle. -/
  | armed (n cycle : Nat)
  /-- Cause 0x09 with this address. -/
  | violation (faddr : Word)
  deriving DecidableEq, Repr

/-- FADDR of cause 0x09 (R227). -/
def State.slotAddr (s : State) (armed : Nat) : Word :=
  let no := match s.myCore.phase with
    | none => 0xFFFF
    | some p => s.cycle - (p.b + 16)
  BitVec.ofNat 64 (no * 2 ^ 16 + armed)

/-- The slot cycles from n on, for some units, are owned, within the phase, and not taken by another operation of the
core, sent or still to be sent in its bundle's later turns (R226, R404). -/
def State.slotsFree (s : State) (p : Phase) (n units : Nat) : Bool :=
  n + units ≤ p.nslot && (List.range units).all fun k =>
    bit (leNat p.owned) (n + k) &&
      !s.underway.any fun r => r.src == s.cur.cn && r.depart == some (p.slotCycle (n + k)) && !(match r.op with | .ship .. => true | _ => false)

/-- How an exchange operation of the executing strand leaves, for a number of departure cycles. The arm is one that the
strand had before the bundle (R61). -/
def State.leave (s : State) (units : Nat) : Leave :=
  match s.myCore.phase with
  | none => .free
  | some p =>
    match if s.src.arm.isSome then s.me.arm else none with
    | none => .violation (s.slotAddr 0xFFFF)
    | some n =>
      if p.slotCycle n ≤ s.cycle || !s.slotsFree p n units then .violation (s.slotAddr n) else .armed n (p.slotCycle n)

/-- Consumes the arm. -/
def State.disarm (s : State) : State := s.modMe fun t => { t with arm := none }

/-- Sends an exchange operation, or one that is none: the continuation gets its departure cycle. -/
def State.exchange (s : State) (isExchange : Bool) (k : State → Option Nat → Res) : Res :=
  if !isExchange then k s none
  else match s.leave 1 with
    | .free => k s none
    | .armed _ c => k s.disarm (some c)
    | .violation f => .trap 0x09 f

/-! ### Loads -/

/-- The near-cache copy of n bytes, when every word that they touch is present. -/
def Core.nearBytes (c : Core) (pa n : Nat) : Option (List Byte) :=
  let ws := (wordsOf pa n).map c.nearWord
  if ws.all (·.isSome) then
    some (slice (ws.flatMap fun (w : Option NearWord) => leBytes 8 (match w with | some x => x.val.toNat | none => 0)) (pa % 8) n)
  else none

/-- Gives up the near-cache line of an address. -/
def Core.evict (c : Core) (pa : Nat) : Core := { c with near := c.near.filter fun w => w.1 / 16 != pa / 128 }

/-- A load served from the near cache (R142, R168), by a free choice of what the cache still holds (log 24): the bytes, or
none with the line given up. The strand's own write of the line that is not yet performed, and its own LDA, come first (R168,
R171). -/
def State.nearHit (s : State) (g : Target) (n hint : Nat) : Option (List Byte) × State :=
  match g.home with
  | .line pa home pol _ =>
    if home = s.cur.cn || effPolicy pol hint = 3 then (none, s)
    else match s.myCore.nearBytes pa n with
      | none => (none, s)
      | some bs =>
        let mine := s.net.any fun r => r.src == s.cur.cn && r.slot == s.cur.slot && match r.op, r.home with
          | .loadAcq .., _ => true
          | .loss w _ _ _, _ => w / 16 == pa / 128
          | op, .line q _ _ _ => op.isWrite && q / 128 == pa / 128
          | _, _ => false
        if mine then (none, s)
        else
          let (k, t) := s.choose 2
          if k = 0 then (some bs, t) else (none, t.modMyCore fun c => c.evict pa)
  | _ => (none, s)

/-- Starts a load of n bytes at a target into registers (R368). -/
def State.startLoad (s : State) (g : Target) (va : Word) (n win sz hint : Nat) (rs : List Reg) : State :=
  match s.nearHit g n hint with
  | (some bs, t) => t.modMe fun u => rs.foldl (fun w r => w.setReg r (BitVec.ofNat 128 (loadValue n win sz bs))) u
  | (none, t) =>
    (t.sendTo g.home (.load n win sz hint) va none none).pendOn t.nextRid rs (g.home.own s.cur.cn)

/-- LD (R366, R367). -/
def execLd (d a : BitVec 5) (z : BitVec 3) (h : BitVec 2) (o : BitVec 10) (s : State) : Out :=
  let n := szBytes z.toNat
  let va := s.ea a o.toNat 10 n
  s.settle (match s.scalarTarget true false va n with
    | (.error (c, f), _) => .trap c f
    | (.ok g, t) =>
      if g.isMcast then .trap 0x07 va else .done (t.startLoad g va n 0 z.toNat h.toNat (rx d)) 0)

/-- LDA (R171, R369): the strand waits for the value and the invalidation. -/
def execLda (d a : BitVec 5) (z e : BitVec 3) (o : BitVec 7) (s : State) : Out :=
  let n := szBytes z.toNat
  let va := s.ea a o.toNat 7 n
  s.settle (match s.scalarTarget true false va n with
    | (.error (c, f), _) => .trap c f
    | (.ok g, t) =>
      if g.isMcast then .trap 0x07 va
      else
        let u := (t.sendTo g.home (.loadAcq n z.toNat e.toNat) va none none).pendOn t.nextRid (rx d) false
        .done (u.modMe fun w => { w with await := some t.nextRid }) 0)

/-- LDV (R370): a claimed port takes the value when its queue has room. -/
def execLdv (d : BitVec 4) (a : BitVec 5) (h : BitVec 2) (o : BitVec 10) (s : State) : Out :=
  let va := s.ea a o.toNat 10 16
  let port := s.portOf d.toNat
  let absent := match port with
    | some p => (neighbour s.cur.cn p).isNone
    | none => false
  s.settle (
    if absent then .trap 0x08 (BitVec.ofNat 64 d.toNat)
    else match s.vectorTarget true false va with
      | (.error (c, f), _) => .trap c f
      | (.ok g, t) =>
        let n := windowBytes g.win
        if g.isMcast then .trap 0x07 va
        else if port.isSome then
          let u := (t.sendTo g.home (.load n g.win 7 h.toNat) va none none).pendOn t.nextRid (rv d) false
          .done (u.modMe fun w => { w with await := some t.nextRid }) 0
        else .done (t.startLoad g va n g.win 7 h.toNat (rv d)) 0)

/-! ### Stores -/

/-- Sends a store, once per member for a multicast address. -/
def State.sendStore (s : State) (g : Target) (va : Word) (bs : List Byte) (hint : Nat) (depart : Option Nat) : State :=
  match g.home with
  | .mcast die dom off => (s.mcastMembers s.cur.cn die dom).foldl (fun t cn =>
      t.sendTo (.scratch cn off) (.store bs hint true) va none depart) s
  | h => s.sendTo h (.store bs hint false) va none depart

/-- Whether the executing core may not store through a multicast target (R131): it is no member of the domain, as every core
is of a domain of another device. -/
def State.stranger (s : State) (g : Target) : Bool :=
  g.isMcast && match g.home with
    | .mcast die dom _ => (s.mcastMembers s.cur.cn die dom).isEmpty
    | _ => true

/-- The checks of a store after its target is known (R131, R227), then the store. A locked handler table of the core itself refuses it
at once; any other core judges the store when it arrives (R233, R407; log 27). -/
def State.storeTo (s : State) (g : Target) (va : Word) (bs : List Byte) (hint flags : Nat) (isExchange : Bool) : Res :=
  if s.stranger g then .trap 0x07 va
  else s.exchange (isExchange && g.exchanged s.cur.cn) fun t depart =>
    if g.home.own s.cur.cn && s.lockRefuses s.me.sup g.home bs.length then .trap 0x07 va
    else .done (t.sendStore g va bs hint depart) flags

/-- ST (R406, R407). -/
def execSt (d a : BitVec 5) (z : BitVec 3) (h : BitVec 2) (o : BitVec 10) (s : State) : Out :=
  let n := szBytes z.toNat
  let va := s.ea a o.toNat 10 n
  let bs := leBytes n (s.x d).toNat
  s.settle (match s.scalarTarget false true va n with
    | (.error (c, f), _) => .trap c f
    | (.ok g, t) => t.storeTo g va bs h.toNat 0 true)

/-- STL (R172, R406): the release, then the store. -/
def execStl (d a : BitVec 5) (z e : BitVec 3) (o : BitVec 7) (s : State) : Out :=
  let n := szBytes z.toNat
  let va := s.ea a o.toNat 7 n
  let bs := leBytes n (s.x d).toNat
  s.settle (match s.scalarTarget false true va n with
    | (.error (c, f), _) => .trap c f
    | (.ok g, t) =>
      if g.isMcast then .trap 0x07 va
      else match t.storeTo g va bs 3 0 false with
        | .trap c f => .trap c f
        | r => if s.releaseWaits s.cur.cn s.cur.slot e.toNat then .wait else r)

/-- STV (R406, R407). -/
def execStv (d : BitVec 4) (a : BitVec 5) (h : BitVec 2) (o : BitVec 10) (s : State) : Out :=
  let va := s.ea a o.toNat 10 16
  let v := s.v d
  s.settle (s.withPorts [d] [] fun s0 =>
    match s0.vectorTarget false true va with
    | (.error (c, f), _) => .trap c f
    | (.ok g, t) =>
      let (bs, flags) := windowStore g.win v
      t.storeTo g va bs h.toNat flags true)

/-! ### Atomics -/

/-- Sends an atomic of n bytes: both rights, no window, multicast or register (R323), then the exchange rule. -/
def State.atomic (s : State) (va : Word) (n : Nat) (op : ReqOp) (rs : List Reg) (og : Option Nat) : Res :=
  if va.toNat % n ≠ 0 then .trap 0x04 va
  else match s.resolve (s.access true true) va n with
    | (.error c, _) => .trap c (if c = 0x03 then 0 else va)
    | (.ok g, t) =>
      let isDev := match g.home with | .dev _ _ => true | _ => false
      if g.win ≠ 0 || g.isMcast || isDev then .trap 0x07 va
      else t.exchange (g.exchanged s.cur.cn) fun u depart =>
        if g.home.own s.cur.cn && t.lockRefuses s.me.sup g.home n then .trap 0x07 va
        else .done ((u.sendTo g.home op va og depart).pendOn u.nextRid rs false) 0

/-- The registers that take the old value of an atomic (R322, R332): X[d], and X[d+1] for 16 bytes; with d = 0 none (R324). -/
def oldRegs (d : BitVec 5) (n : Nat) : List Reg := if d = 0 then [] else if n = 16 then [.x d.toNat, .x (d.toNat + 1)] else rx d

/-- Two registers as one number, the first low. -/
def State.pairX (s : State) (r : Nat) : Nat :=
  (s.src.getX r).toNat + (s.src.getX (r + 1)).toNat * 2 ^ 64

/-- AMO (R322 to R324). -/
def execAmo (d a : BitVec 5) (z : BitVec 3) (o : BitVec 4) (r : BitVec 1) (g : BitVec 2) (f : BitVec 3) (s : State) : Out :=
  let n := szBytes z.toNat
  let v := if n = 16 then s.pairX d.toNat else (s.x d).toNat % 2 ^ (8 * n)
  s.settle (s.atomic (s.ea a f.toNat 3 n) n (.amo n o.toNat v) (oldRegs d n) (if r = 1 then some g.toNat else none))

/-- CAS (R332, R333). -/
def execCas (d a : BitVec 5) (z : BitVec 3) (r : BitVec 1) (g : BitVec 2) (f : BitVec 3) (s : State) : Out :=
  let n := szBytes z.toNat
  let c := if n = 16 then s.pairX d.toNat else (s.x d).toNat % 2 ^ (8 * n)
  let v := if n = 16 then s.pairX (d.toNat + 2) else (s.src.getX (d.toNat + 1)).toNat % 2 ^ (8 * n)
  s.settle (s.atomic (s.ea a f.toNat 3 n) n (.cas n c v) (oldRegs d n) (if r = 1 then some g.toNat else none))

/-! ### Fences and cache words -/

/-- Whether a ticket that the strand of a slot issued is still pending (R173, R353). -/
def Core.ticketsOf (c : Core) (slot : Nat) (later : Nat → Bool) : Bool :=
  c.tickets.toList.any fun t => t.live && t.st == .pending && t.issuer == slot && !t.past && !later t.order

/-- FENCE (R173, R353): t covers tickets, r releases, q acquires. -/
def execFence (t r q : BitVec 1) (e : BitVec 3) (s : State) : Out :=
  let release := r = 1 ∧ (s.releaseWaits s.cur.cn s.cur.slot e.toNat ∨ (t = 1 ∧ s.myCore.ticketsOf s.cur.slot s.cur.isLater))
  let acquire := q = 1 ∧ s.loadsWait s.cur.cn s.cur.slot
  s.settle (if release ∨ acquire then .wait
    else .done (if q = 1 then s.acquire s.cur.cn e.toNat else s) 0)

/-- The target of a cache word: region 0xF has no effect in supervisor mode (R334). -/
def State.lineTarget (s : State) (rd wr : Bool) (va : Word) : Checked (Option Target) × State :=
  match s.resolve (s.access rd wr) va 1 with
  | (.ok g, t) => (.ok (some g), t)
  | (.error c, t) =>
    let v := va.toNat
    if c = 0x07 && s.me.sup && 0x80000 ≤ v && v < 2 ^ 56 then
      match s.translate (s.access rd wr) v with
      | (.ok (pte, level), u) =>
        if fld (leafPa pte level v s.srcPart.vsel.sel) 52 4 = 0xF then (.ok none, u) else (.error (c, va), t)
      | _ => (.error (c, va), t)
    else (.error (c, if c = 0x03 then 0 else va), t)

/-- Sends a cache operation to the line's home slice; other regions take none (R334), and an alias window is refused (R117). -/
def State.lineOp (s : State) (rd wr : Bool) (a : BitVec 5) (o : BitVec 10) (op : ReqOp) : Res :=
  let va := s.ea a o.toNat 10 128
  match s.lineTarget rd wr va with
  | (.error (c, f), _) => .trap c f
  | (.ok none, t) => .done t 0
  | (.ok (some g), t) =>
    if g.win ≠ 0 then .trap 0x07 va
    else match g.home with
      | .line _ _ _ _ => .done (t.sendTo g.home op va none none) 0
      | _ => .done t 0

/-- CFLUSH (R334, R335). -/
def execCflush (a : BitVec 5) (o : BitVec 10) (s : State) : Out := s.settle (s.lineOp true false a o .cflush)

/-- CINV (R334, R335). -/
def execCinv (a : BitVec 5) (o : BitVec 10) (s : State) : Out := s.settle (s.sup (s.lineOp false true a o .cinv))

/-- PREF (R388): never a fault. -/
def execPref (a : BitVec 5) (o : BitVec 10) (s : State) : Out :=
  let va := s.ea a o.toNat 10 128
  s.settle (match s.resolve (s.access true false) va 1 with
    | (.ok g, t) =>
      match g.home with
      | .line _ _ pol _ => .done (if pol < 2 then t.sendTo g.home .pref va none none else t) 0
      | _ => .done t 0
    | (.error c, _) => if c = heldCause then .wait else .done s 0)

end Sys2Proof.Machine
end

