-- ==== Sys2Proof/Machine/Descriptors.lean ====
section
/-! DEFINITION. Reads that an instruction makes when it issues, as strand loads (R61, R216): descriptors, commands, slot
bitmaps, tile bytes. -/
namespace Sys2Proof.Machine

/-- The stop of a synchronous read in a strand: the cause, a wait for earlier requests, or the fatal stop on poison
(R285). -/
def readStop : Stop → Res
  | .fault c a => .trap c (if c = 0x03 then 0 else a)
  | .order => .wait
  | .poison pa => .trap (poisonCause pa) 0

/-- n bytes at a virtual address, read by the executing strand, after what its core has sent to the home before (R61, R167). -/
def State.readStrand (s : State) (va : Word) (n : Nat) : Except Stop (List Byte) × State :=
  s.readBytes (s.access true false) va n

/-- Whether the executing core's own earlier requests to its scratchpad are performed, so that tile bytes may be read. -/
def State.ownQuiet (s : State) : Bool := !s.pendingTo s.cur.cn (.scratch s.cur.cn 0)

/-- The bytes of a tile of a core. -/
def State.tileBytes (s : State) (cn : Nat) (t : Tile) : List Byte := s.mem.readN (scratchKey cn t.base) t.bytes

/-- n bytes of a core's scratchpad. -/
def State.scratchBytes (s : State) (cn off n : Nat) : List Byte := s.mem.readN (scratchKey cn off) n

/-- Writes bytes of a core's scratchpad; bytes beyond it are dropped. -/
def State.writeScratch (s : State) (cn off : Nat) (bs : List Byte) : State :=
  { s with mem := s.mem.writeN (scratchKey cn off) (bs.take (0x10000 - off)) }

/-- Whether a user-mode write of n bytes at a scratchpad offset of a core touches its locked handler table (R233). -/
def State.locked (s : State) (sup : Bool) (cn off n : Nat) : Bool := s.lockRefuses sup (.scratch cn off) n

end Sys2Proof.Machine
end

