-- ==== Sys2Proof/Machine/Tickets.lean ====
section
/-! DEFINITION. The ticket table (R204 to R212): issuing a ticket with its tiles (R145, R206), its end (R207, R145), and the
ticket words of MAJ 0x2B (R209 to R212, R318, R331, R349, R414). -/
namespace Sys2Proof.Machine

/-! ### Handles -/

/-- A ticket handle (R204). -/
def handleOf (gen n : Nat) : Nat := gen * 64 + n

/-- The slot and the generation that a scalar names (R55, R204). -/
def handleSlot (h : Word) : Nat := fld h.toNat 0 6
def handleGen (h : Word) : Nat := fld h.toNat 6 10

/-- The live ticket that a handle names; none when it is stale (R204). -/
def Core.named (c : Core) (h : Word) : Option Ticket :=
  let t := c.ticket (handleSlot h)
  if t.live && t.gen == handleGen h then some t else none

/-- The lowest free slot (R204). -/
def Core.freeSlot (c : Core) : Option Nat := findBelow 64 fun n => !(c.ticket n).live

/-- The generation after one (R204). -/
def nextGen (g : Nat) : Nat := if 1023 ≤ g then 1 else g + 1

/-- Whether a tile can take a source now: a draining read needs no readers. -/
def Tile.admits (x : Tile) (drain : Bool) : Bool := x.st == .ready && (!drain || x.readers == 0)

/-! ### Issue (R204, R206) -/

/-- What an instruction gives its ticket. `drain` tells that its sources drain their tiles. -/
structure NewTicket where
  ctl : Nat
  word : IWord
  xa : Word
  xb : Word
  bind : Word
  tag : Word
  sel : Nat
  refs : Bool
  dst : Option Nat
  src : Option Nat
  src2 : Option Nat
  drain : Bool
  cmd : List Byte
  target : Option Nat

/-- Fields of the E-format control (R206). -/
def NewTicket.prio (n : NewTicket) : Nat := fld n.ctl 0 2
def NewTicket.og (n : NewTicket) : Nat := fld n.ctl 2 2
def NewTicket.det (n : NewTicket) : Bool := bit n.ctl 4

/-- The sources of a new ticket. -/
def NewTicket.srcs (n : NewTicket) : List Nat := n.src.toList ++ n.src2.toList

/-- The tile that is both source and destination, if there is one (R145). -/
def NewTicket.clash (n : NewTicket) : Option Nat := n.dst.bind fun d => if n.srcs.contains d then some d else none

/-- Whether the destination of a new ticket is EMPTY, and whether its sources are READY for it. -/
def Core.dstReady (c : Core) (n : NewTicket) : Bool := match n.dst with | some t => (c.tile t).st == .empty | none => true
def Core.srcsReady (c : Core) (n : NewTicket) : Bool := n.srcs.all fun t => (c.tile t).admits n.drain

/-- Whether the tiles of a new ticket are in the states that it needs. -/
def Core.tilesReady (c : Core) (n : NewTicket) : Bool := c.dstReady n && c.srcsReady n

/-- A tile as the checks of a bundle see it: as it stood before the bundle (R61, R410). -/
def State.tile (s : State) (t : Nat) : Tile := s.srcCore.tile t

/-- The core with the tiles of a new ticket taken. -/
def Core.takeTiles (c : Core) (n : NewTicket) : Core := c.takeFor n.dst n.srcs n.drain

/-- The ticket that the executing strand issues into slot k. -/
def State.freshTicket (s : State) (k : Nat) (n : NewTicket) : Ticket :=
  { Ticket.empty with
    gen := nextGen (s.myCore.ticket k).gen, live := true, det := n.det, owner := s.cur.slot, issuer := s.cur.slot
    prio := n.prio, og := n.og, dtile := n.dst, stile := n.src, stile2 := n.src2, fctl := s.src.fctl.toNat % 2 ^ 16
    sup := s.me.sup, sel := n.sel, word := n.word, seq := s.myCore.seq % 2 ^ 32, xa := n.xa, xb := n.xb, bind := n.bind
    tag := n.tag, pc := s.cur.bundle, refs := n.refs, cmd := n.cmd, target := n.target, order := s.nextRid
    arrive := s.nextRid }

/-- Whether another strand's CTXSV keeps tickets from being issued (R346). -/
def State.ticketsHeld (s : State) : Bool :=
  (List.range 12).any fun i => i != s.cur.slot && (s.myCore.strand i).holds.any fun h => h.2 == .ctx

/-- Puts a new ticket into slot k: `take` takes its tiles, and its handle goes to X[d] (R204). -/
def State.createTicket (s : State) (d : BitVec 5) (k : Nat) (n : NewTicket) (take : Core → Core) : Res :=
  let t := s.freshTicket k n
  let s1 := s.modMyCore fun c => { (take c).setTicket k t with seq := c.seq + 1 }
  .done ({ s1 with nextRid := s1.nextRid + 1 }.setX 1 d (BitVec.ofNat 64 (handleOf t.gen k))) 0

/-- Issues a ticket (R204, R206, R145): a clash of tiles and a full table of order group 3 trap; a full table and the tile
states wait. The handle goes to X[d]. -/
def State.issueTicket (s : State) (d : BitVec 5) (n : NewTicket) : Res :=
  match n.clash with
  | some t => .trap 0x0C (BitVec.ofNat 64 t)
  | none =>
    match s.myCore.freeSlot with
    | none => if n.og = 3 then .trap 0x0B 0 else .wait
    | some k =>
      if s.ticketsHeld || !s.srcCore.tilesReady n || !s.myCore.tilesReady n then .wait
      else
        s.createTicket d k n fun c => c.takeTiles n

/-! ### The end of a ticket (R207, R145) -/

/-- The waits of a strand on a ticket that has ended. -/
def Strand.seeEnd (t : Strand) (n gen st flags : Nat) : Strand :=
  let one (h : Addr × Hold) : Addr × Hold := if h.2 == .waitt n gen then (h.1, .observed n gen st flags) else h
  { t with holds := t.holds.map one }

/-- Whether a strand is in its implicit waits (R208). -/
def Strand.exiting (t : Strand) : Bool := t.holds.any fun h => h.2 == .implicit true || h.2 == .implicit false

/-- The tiles of a ticket at its end. -/
def Core.releaseTiles (c : Core) (t : Ticket) (ok : Bool) : Core := c.giveBack t.dtile (t.stile.toList ++ t.stile2.toList) ok

/-- The tiles of an MROT rectangle on the die of a core (R250), row by row, from the CTL word of the command. -/
def rotMembers (cn ctl : Nat) : List Nat :=
  (List.range (fld ctl 22 2 + 1)).flatMap fun r => (List.range (fld ctl 20 2 + 1)).map fun c =>
    denseNum (dieOf cn) ((fld ctl 18 2 + r) % 4) ((fld ctl 16 2 + c) % 4)

/-- Whether a ticket is an MROT. -/
def Ticket.rots (t : Ticket) : Bool :=
  match instrOf t.word with
  | .mrot .. => true
  | _ => false

/-- The pending MROT tickets of a core that are not doomed (R250). -/
def Core.rotating (c : Core) : List Nat :=
  (List.range 64).filter fun n => (c.ticket n).live && (c.ticket n).st == .pending && (c.ticket n).rots && !(c.ticket n).doomed

/-- Those of them that no match has taken yet, in issue order (R250). -/
def Core.rotsOf (c : Core) : List Nat :=
  sortBy (c.rotating.filter fun n => (c.ticket n).rot.isNone) fun a b => (c.ticket a).before (c.ticket b)

/-- The MROT of a core that is part of a match. -/
def Core.rotIn (c : Core) (k : Nat) : Option Nat := c.rotating.find? fun n => (c.ticket n).rot == some k

/-- The access of an engine for a ticket (R214, R233); region 0xF is no memory for it (R343, R360). -/
def Ticket.access (t : Ticket) (cn part : Nat) : Access :=
  { cn := cn, part := part, sup := t.sup, sel := t.sel, rd := true, wr := true, ex := false, engine := true }

/-- The CTL word of an MROT's command, read again for one restored whose engine has not read it yet (R214). -/
def State.rotCtl (s : State) (cn n : Nat) : Option Nat :=
  let t := (s.core cn).ticket n
  if !t.cmd.isEmpty then some (leAt t.cmd 0 4)
  else match ({ s with net := [] }.readBytes (t.access cn (s.partNo cn)) t.xa 4).1 with
    | .ok bs => some (leNat bs)
    | .error _ => none

/-- The MROTs matched with ticket n will not shift (R250). -/
def State.doomPeers (s : State) (cn n : Nat) : State :=
  let t := (s.core cn).ticket n
  let j := ((s.core cn).rotsOf).idxOf n
  let peers := match s.rotCtl cn n with
    | some ctl => (rotMembers cn ctl).filter (· != cn)
    | none => []
  peers.foldl (fun u m =>
    match match t.rot with | some k => (u.core m).rotIn k | none => ((u.core m).rotsOf)[j]? with
    | some k => u.modCore m fun c => c.setTicket k { c.ticket k with doomed := true }
    | none => if t.rot.isSome then u else u.modCore m fun c => { c with mrotLost := c.mrotLost + 1 }) s

/-- A ticket ends in a state (R207): its tiles go on, every waiting strand observes the end, a detached one that no one
waits for frees, its reference to a weight-set half ends (R199), and an MROT without its shift dooms its peers (R250). CAUSE and
FADDR of a PARKED ticket that is cancelled stay (DESIGN CHOICE, log 94). -/
def State.endTicket (s0 : State) (cn n : Nat) (st : TicketState) : State :=
  let t0 := (s0.core cn).ticket n
  let s := if t0.rots && !t0.doomed && st != .done then s0.doomPeers cn n else s0
  let c := s.core cn
  let t := c.ticket n
  let implicit := t.owner < 12 && !t.det && (c.strand t.owner).exiting
  let ended : Ticket := { t with
    st := st, running := false, answer := none, parked := false, cxl := false, entryWaits := false, cmd := [], ending := none
    seen := c.awaits n t.gen, retire := implicit && st != .faulted }
  let c1 := (c.setTicket n ended).releaseTiles t (st == .done)
  let c2 : Core := { c1 with strands := c1.strands.map fun u => u.seeEnd n t.gen st.code t.tflags }
  let c3 := if implicit && st != .faulted then
      c2.setStrand t.owner { c2.strand t.owner with flags := (c2.strand t.owner).flags ||| BitVec.ofNat 64 t.tflags }
    else c2
  let s1 := (s.setCore cn c3).sweepTickets cn
  if t.refs then s1.dropRefs (s.partNo cn) else s1

/-- Whether the tickets of a core may start elements (R214, R223, R280, R346). -/
def State.ticketsRun (s : State) (cn : Nat) : Bool :=
  (match s.partOf? cn with
    | none => false
    | some p => match (s.part p).status with
      | .running => true
      | .stopping => s.phaseOpen p
      | _ => false) &&
    !(s.core cn).strands.toList.any fun t => t.holds.any fun h => h.2 == .ctx

/-- A ticket ends FAULTED with its cause and address (R207). -/
def State.faultTicket (s : State) (cn n cause : Nat) (faddr : Word) : State :=
  (s.modCore cn fun c => c.setTicket n { c.ticket n with cause := cause, faddr := faddr }).endTicket cn n .faulted

/-- A ticket parks on cause 0x05 or 0x06 (R207, R212). -/
def State.parkTicket (s : State) (cn n cause : Nat) (faddr : Word) : State :=
  s.modCore cn fun c => c.setTicket n { c.ticket n with
    running := false, answer := none, parked := true, cause := cause, faddr := faddr, entryWaits := true }

/-! ### WAITT, TESTT (R209) -/

/-- The scope of a ticket's completion (R178). -/
def Ticket.scope (t : Ticket) : Nat := if t.fabric then 5 else 4

/-- Removes the note of the executing word. -/
def State.unhold (s : State) : State := s.modMe fun t => { t with holds := t.holds.filter fun h => h.1 != s.cur.pc }

/-- ORs flags into FLAGS of the executing strand (R109). -/
def State.orFlags (s : State) (f : Nat) : State := s.modMe fun t => { t with flags := t.flags ||| BitVec.ofNat 64 f }

/-- Observes the end of ticket n of a generation (R207, R209). -/
def State.observeEnd (s : State) (n gen flags : Nat) (nt : Bool) : State :=
  let t := s.myCore.ticket n
  let s1 := s.unhold.orFlags flags
  let s2 := if t.live && t.gen = gen then s1.modMyCore fun c => c.setTicket n (t.observedBy nt) else s1
  (s2.sweepTickets s.cur.cn).acquire s.cur.cn t.scope

/-- WAITT and WAITT.nt on a handle (R209, R318): `fin` completes with the state code, or with 5 for a stale handle. -/
def State.waitTicket (s : State) (h : Word) (nt : Bool) (fin : State → Nat → Res) : Res :=
  let n := handleSlot h
  let gen := handleGen h
  let ended (st flags : Nat) : Res :=
    if st = 2 && !nt then .trap 0x11 (BitVec.ofNat 64 (h.toNat % 2 ^ 16)) else fin (s.observeEnd n gen flags nt) st
  let stale : Res := fin (s.acquire s.cur.cn 5) 5
  match s.held with
  | some (.observed _ _ st flags) => ended st flags
  | some (.stale k g) =>
    let t := s.myCore.ticket k
    if t.live && t.gen = g && t.st = .pending then .wait else stale
  | _ =>
    match s.myCore.named h with
    | none => stale
    | some t => if t.st = .pending then .mark (.waitt n gen) else ended t.st.code t.tflags

/-- WAITT (R209). -/
def execWaitt (a : BitVec 5) (s : State) : Out := s.settle (s.waitTicket (s.x a) false fun t _ => .done t 0)

/-- WAITT.nt (R209). -/
def execWaittNt (d a : BitVec 5) (s : State) : Out :=
  s.settle (s.waitTicket (s.x a) true fun t st => .done (t.setX 1 d (BitVec.ofNat 64 st)) 0)

/-- TESTT (R209, R414): it never waits and never retires. -/
def execTestt (d a : BitVec 5) (s : State) : Out :=
  s.settle (match s.myCore.named (s.x a) with
    | none => .done ((s.acquire s.cur.cn 5).setP 1 d.toNat 0x0013) 0
    | some t =>
      let p := b2n (t.st != .pending) + 2 * b2n (t.st == .done) + 4 * b2n (t.st == .faulted) + 8 * b2n (t.st == .cancelled) +
        32 * b2n t.parked
      let s1 := if t.st = .pending then s else (s.orFlags t.tflags).acquire s.cur.cn t.scope
      .done (s1.setP 1 d.toNat (BitVec.ofNat 16 p)) 0)

/-! ### CANCEL, DETACH, ADOPT, TINFO (R210 to R212) -/

/-- Whether a member has joined the collective of a COLL ticket (R213, R229, R338): the ticket of the same place in its core's
issue order has left the waits on its tiles. -/
def State.collJoined (s : State) (cn n : Nat) : Bool :=
  let c := s.core cn
  match (c.ticket n).collDomain with
  | none => false
  | some dom =>
    let k := (c.collsOn dom).idxOf n
    (s.instanceOf (dieOf cn) dom).any fun x => (x.2.2.members x.1).any fun m =>
      match ((s.core m).collsOn x.2.1)[k]? with
      | some j => !(s.core m).unsent ((s.core m).ticket j)
      | none => false

/-- The slot cycle from which an armed PUT departs (R226), kept as its ticket's command; none for any other ticket. -/
def Ticket.armedAt (t : Ticket) : Option Nat :=
  match instrOf t.word with
  | .put .. => if t.cmd.isEmpty then none else some (leNat t.cmd)
  | _ => none

/-- The element of an armed PUT that one of its units belongs to (R213, R390). -/
def Ticket.elementOf (t : Ticket) (r : Req) : Nat := (r.va - t.xa).toNat / 4096

/-- Whether a request is a unit of an element after element e of ticket n, an armed PUT (R213, R390). -/
def Req.afterElement (r : Req) (cn n e : Nat) (t : Ticket) : Bool :=
  r.src == cn && r.slot == ticketSlot n && r.depart.isSome && e < t.elementOf r

/-- CANCEL of an armed PUT (R210, R331): before its first slot cycle it ends at once; later the element that is being written ends it,
and the units of the later elements are dropped, so that they have no effect (R213). With no unit left it ends by itself. -/
def State.cancelArmed (s : State) (cn n first : Nat) : State :=
  let t := (s.core cn).ticket n
  if s.cycle < first then
    { s with net := s.net.filter fun r => !(r.src == cn && r.slot == ticketSlot n) }.endTicket cn n .cancelled
  else
    let units := s.net.filter fun r => r.src == cn && r.slot == ticketSlot n && r.depart.isSome
    match sortNats (units.map t.elementOf) with
    | [] => s
    | e :: _ => { s with net := s.net.filter fun r => !r.afterElement cn n e t }.modCore cn fun c =>
        c.setTicket n { t with cxl := true, elem := e }

/-- CANCEL of a pending ticket (R331): between elements it ends at once. -/
def State.cancelTicket (s : State) (cn n : Nat) : State :=
  let t := (s.core cn).ticket n
  if t.collDomain.isSome && s.collJoined cn n then s
  else if let some first := t.armedAt then s.cancelArmed cn n first
  else if t.running then s.modCore cn fun c => c.setTicket n { t with cxl := true }
  else s.endTicket cn n .cancelled

/-- CANCEL (R210, R331). -/
def execCancel (a : BitVec 5) (s : State) : Out :=
  s.settle (.done (match s.myCore.named (s.x a) with
    | none => s
    | some t => if t.st = .pending then s.cancelTicket s.cur.cn (handleSlot (s.x a)) else s) 0)

/-- DETACH (R211, R349). -/
def execDetach (a : BitVec 5) (s : State) : Out :=
  let n := handleSlot (s.x a)
  s.settle (.done (match s.myCore.named (s.x a) with
    | none => s
    | some t =>
      let u : Ticket := { t with det := true, seen := s.myCore.awaits n t.gen }
      (s.modMyCore fun c => c.setTicket n u).sweepTickets s.cur.cn) 0)

/-- A strand's wait on a handle that ADOPT has made stale (R318). -/
def Strand.restale (t : Strand) (n old new : Nat) : Strand :=
  let one (h : Addr × Hold) : Addr × Hold := if h.2 == .waitt n old || h.2 == .stale n old then (h.1, .stale n new) else h
  { t with holds := t.holds.map one }

/-- ADOPT (R211, R318). -/
def execAdopt (d a : BitVec 5) (s : State) : Out :=
  let n := handleSlot (s.x a)
  s.settle (s.slot0 (match s.myCore.named (s.x a) with
    | none => .done (s.setX 1 d 0) 0
    | some t =>
      let g := nextGen t.gen
      let s1 := s.modMyCore fun c =>
        let c1 := c.setTicket n { t with owner := 0, det := false, gen := g, retire := false }
        { c1 with strands := c1.strands.map fun u => u.restale n t.gen g }
      .done (s1.setX 1 d (BitVec.ofNat 64 (handleOf g n))) 0))

/-- TINFO (R212): the fault record; zero for a stale handle and for a ticket with no fault. -/
def execTinfo (d a : BitVec 5) (i : BitVec 3) (s : State) : Out :=
  let v : Word := match s.myCore.named (s.x a) with
    | none => 0
    | some t =>
      if t.cause = 0 then 0
      else match i.toNat with
        | 0 => BitVec.ofNat 64 t.cause
        | 1 => BitVec.ofNat 64 t.elem
        | _ => t.faddr
  s.writeX 1 d v

/-- TINFO.resume (R212, R414): a PARKED ticket goes on, its element run again from its start. -/
def execTinfoResume (d a : BitVec 5) (s : State) : Out :=
  let n := handleSlot (s.x a)
  s.settle (s.sup (match s.myCore.named (s.x a) with
    | none => .done (s.setX 1 d 0) 0
    | some t =>
      if !t.parked then .done (s.setX 1 d 0) 0
      else .done ((s.modMyCore fun c => c.setTicket n { t with parked := false, cause := 0, entryWaits := false }).setX 1 d 1) 0))

end Sys2Proof.Machine
end

