-- ==== Sys2Proof/Machine/Tiles.lean ====
section
/-! DEFINITION. The tile words of MAJ 0x2C (R143 to R145, R409, R410). -/
namespace Sys2Proof.Machine

/-- Whether a tile fills for an engine: a pending ticket of the core names it as its destination (R409). -/
def Core.engineFills (c : Core) (n : Nat) : Bool :=
  c.tickets.toList.any fun t => t.live && t.st == .pending && t.dtile == some n

/-- Whether a tile fills under TACQ (R409). -/
def Core.softFills (c : Core) (n : Nat) : Bool := (c.tile n).st == .filling && !c.engineFills n

/-- The stop of a tile in a wrong state: cause 0x0C with its number (R409). -/
def tileError (n : Nat) : Res := .trap 0x0C (BitVec.ofNat 64 n)

/-- Whether a test on tile n holds before the bundle, and still holds (R61, R410). -/
def State.tileTest (s : State) (f : Core → Bool) : Bool := f s.srcCore && f s.myCore

/-- Sets a tile of the executing core. -/
def State.modTile (s : State) (n : Nat) (f : Tile → Tile) : State := s.modMyCore fun c => c.modTile n f

/-- TDEF (R144). FADDR of its cause 0x07 is X[a], the address that the rule names (R271; DEDUCED, log 98). -/
def execTdef (n a b : BitVec 5) (s : State) : Out :=
  let base := s.x a
  let len := s.x b
  s.settle (
    if !s.tileTest fun c => (c.tile n.toNat).st == .empty then tileError n.toNat
    else if 0x10000 ≤ base.toNat then .trap 0x07 base
    else if base.toNat % 16 ≠ 0 then .trap 0x04 base
    else if len.toNat % 16 ≠ 0 || len = 0 then .trap 0x04 len
    else if 0x10000 < base.toNat + len.toNat then .trap 0x07 base
    else .done (s.modTile n.toNat fun x => { x with base := base.toNat, bytes := len.toNat }) 0)

/-- TACQ (R409). -/
def execTacq (n : BitVec 5) (s : State) : Out :=
  s.settle (
    if !s.tileTest fun c => (c.tile n.toNat).st == .empty then tileError n.toNat
    else .done (s.modTile n.toNat fun x => { x with st := .filling }) 0)

/-- TREL (R409). -/
def execTrel (n : BitVec 5) (s : State) : Out :=
  s.settle (
    if !s.tileTest fun c => (c.tile n.toNat).st == .ready then tileError n.toNat
    else if !s.tileTest fun c => (c.tile n.toNat).readers == 0 then .wait
    else .done (s.modTile n.toNat fun x => { x with st := .empty }) 0)

/-- TREL.fill (R409). -/
def execTrelFill (n : BitVec 5) (s : State) : Out :=
  s.settle (
    if !s.tileTest fun c => c.softFills n.toNat then tileError n.toNat
    else .done (s.modTile n.toNat fun x => { x with st := .ready }) 0)

/-- TSTAT (R143, R409). -/
def execTstat (d n : BitVec 5) (s : State) : Out :=
  s.writeX 1 d (BitVec.ofNat 64 ({ s.tile n.toNat with base := 0, readers := 0 }).word)

end Sys2Proof.Machine
end

