-- ==== Sys2Proof/Machine/Tables.lean ====
section
/-! DEFINITION. Table slots and steps (R182 to R184, R194, R195, R412, R413), policy versions (R198 to R202, R424, R425), the
issue of GATHER, GATHERP, SCATTER and SCATADD (R355, R358, R397), and the identifier words IDSORT and MERGE (R185, R186, R362,
R376). -/
namespace Sys2Proof.Machine

/-! ### Fields of a binding (R182) -/

/-- ROWS. -/
def Binding.rows (b : Binding) : Nat := leAt b.desc 0x08 8
/-- BASE. -/
def Binding.base (b : Binding) : Word := wordAt b.desc 0
/-- Row bytes. -/
def Binding.rowBytes (b : Binding) : Nat := 16 * (fld b.ctl 0 8 + 1)
/-- FMT. -/
def Binding.fmt (b : Binding) : Nat := fld b.ctl 8 4
/-- MODE: 0 STRICT, 1 BOUNDED, 2 STEPPED. -/
def Binding.mode (b : Binding) : Nat := fld b.ctl 12 2
/-- The staleness bound. -/
def Binding.bound (b : Binding) : Nat := fld b.ctl 14 4
/-- HMODE. -/
def Binding.hmode (b : Binding) : Bool := bit b.ctl 19
/-- POOLFMT. -/
def Binding.pool16 (b : Binding) : Bool := bit b.ctl 20
/-- ROUTINE. -/
def Binding.routine (b : Binding) : Nat := fld b.ctl 21 4

/-- The checks of R183 on the 64 descriptor bytes. -/
def descValid (bs : List Byte) (follow : Bool) : Bool :=
  let b : Binding := { desc := bs, addr := 0, sel := 0, ver := 0 }
  b.mode != 3 && [2, 7, 8, 9, 10, 11, 12].contains b.fmt && (b.bound == 0 || b.mode == 1) && fld b.ctl 25 39 == 0 &&
    (slice bs 0x2C 20).all (· == 0) && b.rows != 0 && b.rows ≤ 2 ^ 40 && b.base.toNat % 16 == 0 && (!b.hmode || b.mode == 0) &&
    (!b.vers || follow)

/-- The copy that a slot holds: every field but STEP (R183, R282). -/
def bindCopy (bs : List Byte) : List Byte := slice bs 0 0x18 ++ List.replicate 8 0 ++ slice bs 0x20 0x10

/-- Sets a table slot. -/
def Core.bind (c : Core) (n : Nat) (b : Option Binding) : Core := { c with tslots := c.tslots.setIfInBounds n b }

/-- TBIND (R183, R412). -/
def execTbind (n : BitVec 3) (a : BitVec 5) (s : State) : Out :=
  let va := s.x a
  let set (t : State) (b : Option Binding) : Res := .done ((t.modMyCore fun c => c.bind n.toNat b).dropRefs (t.partNo s.cur.cn)) 0
  s.settle (
    if va = 0 then set s none
    else if va.toNat % 64 ≠ 0 then .trap 0x04 va
    else match s.readStrand va 64 with
      | (.error e, _) => readStop e
      | (.ok bs, t) =>
        let v := s.srcPart.vsel
        if !descValid bs v.follow then .trap 0x07 s.openAddr
        else
          let b : Binding := { desc := bindCopy bs, addr := va, sel := 0, ver := 0 }
          set t (some (if b.vers then { b with sel := v.sel, ver := v.ver } else b)))

/-! ### Step tags and TSTEP (R194, R195) -/

/-- The physical address that tells a table's descriptor apart, from a virtual address of a partition. -/
def State.tableKey (s : State) (cn part : Nat) (va : Nat) : Nat :=
  if va < 0x80000 then globalScratch cn va
  else match { s with net := [] }.walk part va with
    | .ok w => leafPa w.pte w.level va (s.part part).vsel.sel
    | .error _ => 2 ^ 60 + part * 2 ^ 57 + va

/-- The home of the STEP word of a binding's descriptor, for the executing strand. -/
def State.stepHome (s : State) (b : Binding) : Checked Home × State :=
  let va := b.addr + 0x18
  match s.resolve (s.access true false) va 8 with
  | (.error c, t) => (.error (c, if c = 0x03 then 0 else va), t)
  | (.ok g, t) => match g.home with
    | .mcast .. | .dev .. | .remote .. | .remoteMcast _ => (.error (0x07, va), t)
    | h => if g.win ≠ 0 then (.error (0x07, va), t) else (.ok h, t)

/-- Sends a request about a binding's table to the home of its STEP word. -/
def State.askStep (s : State) (b : Binding) (op : Nat → ReqOp) : Res :=
  match s.stepHome b with
  | (.error (c, f), _) => .trap c f
  | (.ok h, t) => .start (.request (t.request h (op (t.tableKey t.cur.cn (t.partNo t.cur.cn) b.addr.toNat)) b.addr))

/-- TSTEP (R195, R413): the flags of a STEPPED table's applications join FLAGS, and an enabled one traps afterwards. -/
def execTstep (n : BitVec 3) (s : State) : Out :=
  s.settle (match s.srcCore.binding n.toNat with
    | none => .trap 0x07 (BitVec.ofNat 64 n.toNat)
    | some b =>
      if b.hmode then .trap 0x07 (BitVec.ofNat 64 n.toNat)
      else match s.held with
        | some (.replied f none) =>
          let t := s.orFlags f.toNat
          if flagsTrap s.src.fctl.toNat f.toNat then .late t 0 0x0D f else .done t 0
        | some (.replied _ (some (c, f))) => .trap c f
        | some (.reply _) => .wait
        | _ => s.askStep b fun key => .tstep key b.mode b.bound s.myCore.tstepSeq false)

/-! ### Table tickets -/

/-- The binding word of a ticket's record (R214). -/
def Binding.word (b : Binding) : Word := BitVec.ofNat 64 (b.addr.toNat % 2 ^ 56 / 64 * 64 + b.sel * 32)

/-- The ticket of a table instruction through a binding, with its step tag. -/
def State.tableTicket (s : State) (b : Binding) (ctl : Nat) (word : IWord) (xa tag : Word) (dst : Option Nat) (src : Nat)
    (src2 : Option Nat) : NewTicket :=
  { ctl := ctl, word := word, xa := xa, xb := 0, bind := b.word
    tag := if b.hmode then BitVec.ofNat 64 (b.ver * 2 ^ 48) else tag
    sel := b.sel, refs := b.vers && s.srcPart.vsel.follow, dst := dst, src := some src, src2 := src2, drain := false
    cmd := b.desc, target := none }

/-- Sends the request for a table ticket's step tag, with the tiles taken. -/
def State.askTag (s : State) (b : Binding) (n : NewTicket) : Res :=
  match s.stepHome b with
  | (.error (c, f), _) => .trap c f
  | (.ok h, t) =>
    .start (.tiles n.dst n.srcs (some (t.request h (.stepTag (t.tableKey t.cur.cn (t.partNo t.cur.cn) b.addr.toNat)) b.addr)))

/-- Creates a table ticket when a slot is free, or keeps its tiles and waits (R206). -/
def State.placeTable (s : State) (d : BitVec 5) (n : NewTicket) : Res :=
  let old := s.held.bind Hold.taken
  let take (c : Core) : Core := c.takeFor (if old.any (·.1.isSome) then none else n.dst) (if old.isSome then [] else n.srcs) false
  match s.myCore.freeSlot with
  | none => if old == some (n.dst, n.srcs) then .wait else .start (.tiles n.dst n.srcs none)
  | some k => if s.ticketsHeld then .wait else s.createTicket d k n take

/-- Issues a table ticket (R355, R397): the checks, then the waits in their order: its sources, its destination, for a BOUNDED or
STEPPED table the step tag from the descriptor's home (R194), and a ticket slot. -/
def State.issueTable (s : State) (d : BitVec 5) (b : Binding) (tagged : Bool) (mk : Word → NewTicket) : Res :=
  let n := mk 0
  let old := s.held.bind Hold.taken
  match n.clash with
  | some t => .trap 0x0C (BitVec.ofNat 64 t)
  | none =>
    if s.myCore.freeSlot.isNone && n.og = 3 then .trap 0x0B 0
    else match s.held with
      | some (.tilesGranted _ _ _ tag) => s.placeTable d (mk tag)
      | some (.tilesAsked ..) => .wait
      | _ =>
        if old.isNone && !(s.srcCore.srcsReady n && s.myCore.srcsReady n) then .wait
        else if !(old.any (·.1.isSome)) && !(s.srcCore.dstReady n && s.myCore.dstReady n) then
          if old.isSome then .wait else .start (.tiles none n.srcs none)
        else if tagged && b.mode ≠ 0 then s.askTag b n
        else s.placeTable d n

/-- The binding of a slot, or the trap of an empty one (R183). -/
def State.throughSlot (s : State) (n : BitVec 3) (k : Binding → Res) : Res :=
  match s.srcCore.binding n.toNat with
  | none => .trap 0x07 (BitVec.ofNat 64 n.toNat)
  | some b => k b

/-- GATHER (R188, R355): with .pf no destination and no step tag. -/
def execGather (k : BitVec 1) (d a : BitVec 5) (f : BitVec 1) (n : BitVec 3) (t c : BitVec 5) (s : State) : Out :=
  let word := encode (.gather k d a f n t c)
  s.settle (s.throughSlot n fun b => s.issueTable d b (f == 0) fun tag =>
    s.tableTicket b c.toNat word 0 tag (if f = 1 then none else some t.toNat) a.toNat none)

/-- GATHERP (R189, R355, R358). -/
def execGatherp (k : BitVec 1) (d a : BitVec 5) (m : BitVec 1) (n : BitVec 3) (t c : BitVec 5) (s : State) : Out :=
  let word := encode (.gatherp k d a m n t c)
  s.settle (s.throughSlot n fun b => s.issueTable d b true fun tag =>
    s.tableTicket b c.toNat word 0 tag (some t.toNat) a.toNat (some (a.toNat + 1)))

/-- SCATTER and SCATADD (R397): both tiles are sources. -/
def State.scatter (s : State) (d a : BitVec 5) (n : BitVec 3) (t c : BitVec 5) (word : IWord) : Res :=
  s.throughSlot n fun b =>
    if b.hmode then .trap 0x07 (BitVec.ofNat 64 n.toNat)
    else if t = a then .trap 0x0C (BitVec.ofNat 64 t.toNat)
    else s.issueTable d b true fun tag => s.tableTicket b c.toNat word 0 tag none a.toNat (some t.toNat)

/-- SCATTER (R397). -/
def execScatter (k : BitVec 1) (d a : BitVec 5) (n : BitVec 3) (t c : BitVec 5) (s : State) : Out :=
  s.settle (s.scatter d a n t c (encode (.scatter k d a n t c)))

/-- SCATADD (R397). -/
def execScatadd (k : BitVec 1) (d a : BitVec 5) (n : BitVec 3) (t c : BitVec 5) (s : State) : Out :=
  s.settle (s.scatter d a n t c (encode (.scatadd k d a n t c)))

/-! ### Policy versions (R201, R202) -/

/-- VPUB (R201, R424): the release comes before the checks. -/
def execVpub (a b : BitVec 5) (s : State) : Out :=
  let va := s.x a
  let ver := fld (s.x b).toNat 0 16
  s.settle (match s.held with
    | some (.replied _ none) => .done s 0
    | some (.replied _ (some (c, f))) => .trap c f
    | some (.reply _) => .wait
    | _ =>
      if s.releaseWaits s.cur.cn s.cur.slot 4 then .wait
      else if va.toNat % 32 ≠ 0 then .trap 0x04 va
      else match s.resolve (s.access true true) va 32 with
        | (.error c, _) => .trap c (if c = 0x03 then 0 else va)
        | (.ok g, t) =>
          let stranger := g.win ≠ 0 || (match g.home with | .mcast .. | .dev .. | .remote .. | .remoteMcast _ => true | _ => false)
          if stranger then .trap 0x07 va
          else .start (.request (t.request g.home (.vpub g.pa ver) va)))

/-- VSWITCH (R202, R425): its request goes to the home of the followed descriptor, after the strand's earlier ones (R167). -/
def execVswitch (a : BitVec 5) (s : State) : Out :=
  let ver := fld (s.x a).toNat 0 16
  s.settle (s.slot0 (match s.held with
    | some (.replied _ none) => .done s 0
    | some (.replied _ (some (c, f))) => .trap c f
    | some (.reply _) => .wait
    | _ =>
      if !s.srcPart.vsel.follow then .trap 0x0F (BitVec.ofNat 64 ver)
      else
        let (home, t) := s.followHome (s.partNo s.cur.cn)
        .start (.request (t.request home (.vswitch ver) t.srcPart.follow))))

/-- Whether a SAMPLE of a partition is in progress (R202, R267). -/
def State.sampling (s : State) (p : Nat) : Bool := (s.part p).cores.any fun cn => (s.core cn).samples

/-- Reads n bytes of a descriptor at its home for a request; poison stops the partition. -/
def State.descAt (s : State) (r : Req) (n : Nat) : Option (List Byte) × State :=
  let (v, t) := s.readHome r.home n (effPolicy r.home.pol 0)
  if v.2 then (none, t.poisonStop r) else (some v.1, t)

/-- VPUB at the home (R201). -/
def State.publish (s : State) (r : Req) (ver : Nat) : State :=
  match s.descAt r 32 with
  | (none, t) => t
  | (some bs, t) =>
    let act := wsActive bs
    let h := 1 - act
    if wsHold bs h ≠ 0 || ver = wsVer bs act then t.answerHold r.src r.slot r.rid 0 (some (0x0F, BitVec.ofNat 64 ver))
    else
      let new := slice bs 0 (2 * h) ++ leBytes 2 ver ++ slice bs (2 * h + 2) (2 - 2 * h) ++ leBytes 1 (leAt bs 4 1 / 2 * 2 + h) ++
        slice bs 5 11 ++ leBytes 8 (leAt bs 16 8 + 1) ++ slice bs 24 8
      ((t.writeHome r.home new (effPolicy r.home.pol 0)).ownAt r.part r.src r.slot none r.home 32).answerAfter r 0 none

/-- VSWITCH at the home (R199, R202): the partition takes the new half, whose reference starts. -/
def State.switchVersion (s : State) (r : Req) (ver : Nat) : State :=
  let p := r.part
  let v := (s.part p).vsel
  let refuse (t : State) (c : Nat) (a : Word) : State := t.answerHold r.src r.slot r.rid 0 (some (c, a))
  if s.sampling p then refuse s 0x0F (BitVec.ofNat 64 ver)
  else match s.weightSet p with
    | (.error c, t) => refuse t c (s.part p).follow
    | (.ok bs, t) =>
      let h := wsActive bs
      if ver ≠ wsVer bs h then refuse t 0x0F (BitVec.ofNat 64 ver)
      else if ver = v.ver then t.answerHold r.src r.slot r.rid 0 none
      else
        let had := (t.part p).refs[h]?.getD false
        let t1 := t.modPart p fun x => { x with vsel := { x.vsel with sel := h, ver := ver } }.setRefs h true
        let t2 := if had then t1 else t1.addHold p h true
        (t2.dropRefs p).answerHold r.src r.slot r.rid 0 none

/-- WEIGHT_SET_REQUEST (R200): request i is performed at its descriptor's home. -/
def State.weightSetRequest (s : State) (i : Nat) : State :=
  if !s.canPerform i then s
  else match s.net[i]? with
    | none => s
    | some r =>
      match r.op with
      | .vpub _ ver => (s.dropReq i).publish r ver
      | .vswitch ver => (s.dropReq i).switchVersion r ver
      | .setRef h => (s.dropReq i).endRef r.part h
      | _ => s

/-! ### IDSORT and MERGE (R185, R186) -/

/-- The identifier NONE (R185). -/
def idNone : Nat := 2 ^ 64 - 1
/-- The merge marker (R186). -/
def mergeMarker : Nat := 0xFFFFFFFFFFFFFFF0
/-- The reserved identifiers (R186). -/
def idReserved (x : Nat) : Bool := mergeMarker ≤ x && x < idNone

/-- The 8-byte entries of a list of bytes. -/
def idEntries (bs : List Byte) : List Nat :=
  match bs with
  | a :: b :: c :: d :: e :: f :: g :: h :: r => leNat [a, b, c, d, e, f, g, h] :: idEntries r
  | _ => []

/-- A rising list without its repeats. -/
def dedup : List Nat → List Nat
  | a :: b :: r => if a = b then dedup (b :: r) else a :: dedup (b :: r)
  | l => l

/-- The distinct identifiers other than NONE, rising. -/
def distinctIds (ids : List Nat) : List Nat := dedup (sortBy (ids.filter (· ≠ idNone)) fun a b => a ≤ b)

/-- Completes a synchronous tile word: the write of each block to the core's own scratchpad, unless a locked handler table
refuses it (R233, R362). -/
def State.writeTiles (s : State) (blocks : List (Nat × List Byte)) (k : State → Res) : Res :=
  let cn := s.cur.cn
  match blocks.find? fun b => !b.2.isEmpty && s.locked s.me.sup cn b.1 b.2.length with
  | some b => .trap 0x07 (BitVec.ofNat 64 b.1)
  | none => k (blocks.foldl (fun t b => t.writeScratch cn b.1 b.2) s)

/-- IDSORT (R185, R362; which tile number two equal tiles give, log 87). -/
def execIdsort (d a b t : BitVec 5) (s : State) : Out :=
  let u := t.toNat
  let i := a.toNat
  let v := b.toNat
  let bytes (n : Nat) : Nat := (s.tile n).bytes
  s.settle (
    if u = i || u = v || i = v then tileError (max u (max i v))
    else if !s.tileTest fun c => c.softFills u then tileError u
    else if !s.tileTest fun c => c.softFills v then tileError v
    else if bytes u < 2 * bytes i then tileError u
    else if bytes v < bytes i / 2 then tileError v
    else if !s.tileTest (fun c => (c.tile i).st == .ready) then .wait
    else
      if !s.ownQuiet then .wait
      else
        let ids := idEntries (s.tileBytes s.cur.cn (s.tile i))
        let ds := distinctIds ids
        let outU := ds.flatMap fun x => leBytes 8 x ++ leBytes 4 (ids.count x) ++ leBytes 4 0
        let outV := ids.flatMap fun x => leBytes 4 (if x = idNone then 2 ^ 32 - 1 else ds.idxOf x)
        s.writeTiles [((s.tile u).base, outU), ((s.tile v).base, outV)] fun w =>
          .done (w.setX 1 d (BitVec.ofNat 64 ds.length)) 0)

/-- The merge of R186: what is left of each side, the last entry taken from each, and the entries written so far in
reverse; the flag is ORDV. -/
def mergeIds : (fuel : Nat) → (as bs : List Nat) → (pa pb : Option Nat) → (out : List Nat) → (bad : Bool) → List Nat × Bool
  | 0, _, _, _, _, out, bad => (out.reverse, bad)
  | n + 1, as, bs, pa, pb, out, bad =>
    let takeA (x : Nat) (r : List Nat) : List Nat × Bool :=
      let fails : Bool := match pa with
        | some y => x ≤ y
        | none => false
      if fails then mergeIds n r bs (some x) pb (mergeMarker :: x :: out) true
      else match bs with
        | b :: q => if b = x then mergeIds n r q (some x) (some x) (x :: out) bad else mergeIds n r bs (some x) pb (x :: out) bad
        | [] => mergeIds n r [] (some x) pb (x :: out) bad
    let takeB (x : Nat) (r : List Nat) : List Nat × Bool :=
      let fails : Bool := match pb with
        | some y => x ≤ y
        | none => false
      if fails then mergeIds n as r pa (some x) (mergeMarker :: x :: out) true
      else match as with
        | a :: q => if a = x then mergeIds n q r (some x) (some x) (x :: out) bad else mergeIds n as r pa (some x) (x :: out) bad
        | [] => mergeIds n [] r pa (some x) (x :: out) bad
    match as, bs with
    | [], [] => (out.reverse, bad)
    | a :: r, [] => if idReserved a then mergeIds n r [] pa pb (mergeMarker :: out) true else takeA a r
    | [], b :: q => if idReserved b then mergeIds n [] q pa pb (mergeMarker :: out) true else takeB b q
    | a :: r, b :: q =>
      if idReserved a then mergeIds n r (b :: q) pa pb (mergeMarker :: out) true
      else if idReserved b then mergeIds n (a :: r) q pa pb (mergeMarker :: out) true
      else if a ≤ b then takeA a r
      else takeB b q

/-- MERGE (R186, R376): cause 0x17 follows the completed word when ORDV is set and EORDV enables it. -/
def execMerge (d a b t : BitVec 5) (s : State) : Out :=
  let o := t.toNat
  s.settle (
    if o = a.toNat || o = b.toNat || !s.tileTest fun c => c.softFills o then tileError o
    else if (s.tile o).bytes < 2 * ((s.tile a.toNat).bytes + (s.tile b.toNat).bytes) then tileError o
    else if !s.tileTest fun c => (c.tile a.toNat).st == .ready && (c.tile b.toNat).st == .ready then .wait
    else
      if !s.ownQuiet then .wait
      else
        let ids (k : Nat) : List Nat := (idEntries (s.tileBytes s.cur.cn (s.tile k))).filter (· ≠ idNone)
        let as := ids a.toNat
        let bs := ids b.toNat
        let (out, bad) := mergeIds (as.length + bs.length + 1) as bs none none [] false
        s.writeTiles [((s.tile o).base, out.flatMap fun x => leBytes 8 x)] fun w =>
          let w1 := w.setX 1 d (BitVec.ofNat 64 out.length)
          if bad && fctlOrdv s.src.fctl.toNat then .late w1 fORDV 0x17 0 else .done w1 (flagIf bad fORDV))

end Sys2Proof.Machine
end

