-- ==== Sys2Proof/Machine/Rows.lean ====
section
/-! DEFINITION. Row updates at the update engines (R187, R191, R193, R196), step tags and TSTEP at the descriptor's home (R194,
R195, R413), and how an element of a ticket ends (R207, R213). -/
namespace Sys2Proof.Machine

/-! ### The end of an element (R109, R207, R213) -/

/-- How an element of a ticket went. -/
inductive ElemEnd where
  /-- It ended with flags; another follows unless it was the last. -/
  | ended (s : State) (flags : Nat) (last : Bool)
  /-- It faulted. -/
  | fault (s : State) (cause : Nat) (faddr : Word)
  /-- Its requests are on their way, or it waits for other requests of its source (R167). -/
  | sent (s : State)
  /-- Poisoned storage has stopped the partition (R285). -/
  | stopped (s : State)

/-- A ticket without the reply of an element that is over; the refusals of an armed PUT's units name their element. -/
def Ticket.freshAnswer (t : Ticket) : Ticket := if t.armedAt.isSome then t else { t with answer := none }

/-- An element of ticket n has ended with its writes performed (R207): its flags join TFLAGS, and the ticket ends, is cancelled, or
waits for its next grant. -/
def State.closeElement (s : State) (cn n flags : Nat) (last : Bool) : State :=
  let s1 := s.modCore cn fun c =>
    let t := c.ticket n
    c.setTicket n { t with tflags := t.tflags ||| flags, elem := t.elem + 1, running := false, ending := none }.freshAnswer
  if last then s1.endTicket cn n .done
  else if ((s1.core cn).ticket n).cxl then s1.endTicket cn n .cancelled
  else s1

/-- Whether a unit of ticket n's element is still to be performed, or loses ownership elsewhere (R165, R178). The units of an armed
PUT are counted by element. -/
def State.unitsOut (s : State) (cn n : Nat) : Bool :=
  if ((s.core cn).ticket n).armedAt.isSome then s.lossesOf cn (ticketSlot n)
  else s.net.any fun q => q.src == cn && q.slot == ticketSlot n

/-- An element of ticket n ends (R207): an enabled flag faults the ticket and the element has no effect (`before` is the state
without it); otherwise it ends once its writes are performed, each with its loss of ownership acknowledged (R165, R178). -/
def State.elementEnd (before s : State) (cn n flags : Nat) (last : Bool) : State :=
  if flagsTrap ((s.core cn).ticket n).fctl flags then before.faultTicket cn n 0x0D (BitVec.ofNat 64 flags)
  else if s.unitsOut cn n then
    s.modCore cn fun c => c.setTicket n { c.ticket n with running := true, ending := some (flags, last) }.freshAnswer
  else s.closeElement cn n flags last

/-- Causes that park a ticket (R207). -/
def parks (cause : Nat) : Bool := cause == 0x05 || cause == 0x06

/-- A fault of the running element (R207, R212). One with cause 0x05 or 0x06 of a ticket that is to be cancelled ends it CANCELLED
(DESIGN CHOICE, log 93). -/
def State.elementFault (s : State) (cn n cause : Nat) (faddr : Word) : State :=
  if parks cause then
    (if ((s.core cn).ticket n).cxl then s.endTicket cn n .cancelled else s.parkTicket cn n cause faddr)
  else s.faultTicket cn n cause faddr

/-- The state after an element. -/
def State.finishElement (before : State) (cn n : Nat) : ElemEnd → State
  | .ended s flags last => before.elementEnd s cn n flags last
  | .fault s cause faddr => s.elementFault cn n cause faddr
  | .sent s => s
  | .stopped s => s

/-- A poisoned read by an element of ticket n (R285). -/
def State.elementPoison (s : State) (cn n pa : Nat) : State :=
  let t := (s.core cn).ticket n
  s.fatalStop (s.partNo cn) 0x13 cn t.issuer t.pc pa

/-! ### The units of an element (R176) -/

/-- A request of ticket n's engine. -/
def State.unitReq (s : State) (cn n : Nat) (home : Home) (op : ReqOp) (va : Word) : Req :=
  let t := (s.core cn).ticket n
  { rid := 0, src := cn, slot := ticketSlot n, part := s.partNo cn, sup := t.sup, va := va, fpc := t.pc, home := home, op := op
    og := none, depart := none, due := none }

/-- Whether two destinations lie in one line, which an element owns while it writes it (R176). -/
def sameLine (a b : Home) : Bool :=
  match a, b with
  | .line p c _ _, .line q d _ _ => p / 128 == q / 128 && c == d
  | _, _ => false

/-- A unit to be moved: the addresses and homes that it reads and writes. -/
structure Unit16 where
  va : Word
  src : Home
  to_ : Word
  dst : Home

/-- The units that are moved in one step: those of one destination line together, which no other access divides (R176). -/
def joinUnits : List Unit16 → List (List Unit16)
  | [] => []
  | u :: r =>
    match joinUnits r with
    | (v :: g) :: gs => if sameLine u.dst v.dst then (u :: v :: g) :: gs else [u] :: (v :: g) :: gs
    | gs => [u] :: gs

/-- Sends the units of an element of ticket n, in order. -/
def State.sendUnits (s : State) (cn n : Nat) (us : List Unit16) : State :=
  s.send ((joinUnits us).filterMap fun g => match g with
    | [] => none
    | u :: _ => some (s.unitReq cn n u.dst (.move (g.map fun v => (v.src, v.dst)) u.to_) u.va))

/-- Bytes from an offset on as pieces within aligned 16-byte units. -/
def unitPieces : (fuel off : Nat) → List Byte → List (Nat × List Byte)
  | 0, _, _ => []
  | k + 1, off, bs =>
    if bs.isEmpty then []
    else
      let m := 16 - off % 16
      (off, bs.take m) :: unitPieces k (off + m) (bs.drop m)

/-- Sends bytes to an offset of the own scratchpad in aligned 16-byte units, for an element of ticket n (R176); bytes beyond the
scratchpad are dropped. -/
def State.sendBytes (s : State) (cn n off : Nat) (bs : List Byte) : State :=
  s.send ((unitPieces (bs.length / 16 + 2) off (bs.take (0x10000 - off))).map fun p =>
    s.unitReq cn n (.scratch cn p.1) (.store p.2 0 false) (BitVec.ofNat 64 p.1))

/-! ### Rows at their homes (R187) -/

/-- The home of a 16-byte unit of a row. -/
def State.unitHome (s : State) (part : Nat) (u : Nat × Nat × Nat) : Home :=
  .line u.1 ((s.homeOf (s.part part) u.1 u.2.1).getD 0) u.2.2 u.2.1

/-- The bytes of a row, or the address of a poisoned line. -/
def State.readUnits (s : State) (part : Nat) : List (Nat × Nat × Nat) → Except Nat (List Byte) × State
  | [] => (.ok [], s)
  | u :: us =>
    let (v, t) := s.readHome (s.unitHome part u) 16 (effPolicy u.2.2 0)
    if v.2 then (.error u.1, t)
    else match t.readUnits part us with
      | (.error p, w) => (.error p, w)
      | (.ok bs, w) => (.ok (v.1 ++ bs), w)

/-- Writes the bytes of a row; no core owns its words afterwards (R191). `cn` and `slot` are those for which it is written. -/
def State.writeUnits (s : State) (part cn slot : Nat) : List (Nat × Nat × Nat) → List Byte → State
  | [], _ => s
  | u :: us, bs =>
    let h := s.unitHome part u
    ((s.writeHome h (bs.take 16) (effPolicy u.2.2 0)).ownAt part cn slot none h 16).writeUnits part cn slot us (bs.drop 16)

/-! ### The row operations (R193) -/

/-- The elements of w bytes of a row. -/
def elems (w : Nat) (bs : List Byte) : List Nat := (List.range (bs.length / w)).map fun i => leAt bs (w * i) w

/-- Element by element, with the OR of the flags. -/
def mapElems (w : Nat) (f : Nat → Nat → Nat → Nat × Nat) (row data : List Nat) : List Byte × Nat :=
  let rs := (List.range row.length).map fun i => f i (row.getD i 0) (data.getD i 0)
  (rs.flatMap fun r => leBytes w r.1, rs.foldl (fun acc r => acc ||| r.2) 0)

/-- The random field of element i for add.bf16.sr. -/
def updateRandom (key tag row j i : Nat) : Nat :=
  let r := philox key (tag % 2 ^ 32 * 2 ^ 96 + row % 2 ^ 48 * 2 ^ 48 + j % 2 ^ 32 * 2 ^ 16 + i / 8 % 2 ^ 16)
  fld r (16 * (i % 8)) 16

/-- The sum of squares of adagrad, in ascending order. -/
def squareSum : List Nat → Nat → Nat → Nat × Nat
  | [], acc, f => (acc, f)
  | g :: gs, acc, f =>
    let p := fMul 8 0 false g g
    let r := fAdd 8 0 false acc p.1
    squareSum gs r.1 (f ||| p.2 ||| r.2)

/-- adagrad on a row of E weights and an accumulator. -/
def adagrad (lr eps : Nat) (row data : List Byte) : List Byte × Nat :=
  let n := row.length / 4 - 4
  let w := (elems 4 row).take n
  let g := elems 4 data
  let s := squareSum g 0 0
  let m := fDiv 8 0 (fDec 8 s.1) (FVal.ofInt n)
  let a := fAdd 8 0 false (leAt row (4 * n) 4) m.1
  let root := fSqrt 8 0 (fDec 8 a.1)
  let q := fAdd 8 0 false root.1 eps
  let step (_ x y : Nat) : Nat × Nat :=
    let p := fMul 8 0 false lr y
    let d := fDiv 8 0 (fDec 8 p.1) (fDec 8 q.1)
    let z := fSub 8 0 false x d.1
    (z.1, p.2 ||| d.2 ||| z.2)
  let out := mapElems 4 step w g
  (out.1 ++ leBytes 4 a.1 ++ List.replicate 12 0, s.2 ||| m.2 ||| a.2 ||| root.2 ||| q.2 ||| out.2)

/-- A row update: the new row and its flags. `tag` is T and `j` is J of R193. The exponent E by which R115 places the random bits of
add.bf16.sr is stated for one operand; for the exact sum it is the smaller scale of the two, a zero's being that of the least
subnormal (DESIGN CHOICE, log 80). -/
def rowOp (u : RowUpd) (tag j : Nat) (row : List Byte) : List Byte × Nat :=
  match u.op with
  | 1 => mapElems 4 (fun _ x g => fAdd 8 0 false x g) (elems 4 row) (elems 4 u.data)
  | 2 =>
    let one (i x g : Nat) : Nat × Nat :=
      let sum := exAdd 0 (fDec 9 x) (fDec 8 g)
      let y := sRound 9 sum.1 (updateRandom u.ukey.toNat tag u.id j i) 16
      (y.1, y.2 ||| flagIf sum.2 fNV)
    mapElems 2 one (elems 2 row) (elems 4 u.data)
  | 3 | 4 =>
    let isMax := u.op == 4
    let one (_ x g : Nat) : Nat × Nat :=
      if u.fmt = 8 then fMinMax isMax 8 false x g
      else if (signed x 32 < signed g 32) == isMax then (g, 0) else (x, 0)
    mapElems 4 one (elems 4 row) (elems 4 u.data)
  | 5 => mapElems 8 (fun _ x g => (min x g, 0)) (elems 8 row) (elems 8 u.data)
  | 6 => adagrad u.lr u.eps row u.data
  | _ => (u.data, 0)

/-- The contribution size C of an operation for a row of n bytes (R193). -/
def contribBytes (op n : Nat) : Nat :=
  match op with
  | 2 => 2 * n
  | 6 => n - 16
  | _ => n

/-- Whether an operation accepts a format and a row size (R193). For adagrad on a row without a parameter beside its accumulator no
rule states an outcome: the ticket faults with 0x07 (DESIGN CHOICE, log 82). -/
def opAccepts (op fmt rowBytes : Nat) : Bool :=
  match op with
  | 1 => fmt == 8
  | 2 => fmt == 9
  | 3 | 4 => fmt == 8 || fmt == 2
  | 5 => fmt == 7
  | 6 => fmt == 8 && 16 < rowBytes
  | 7 => true
  | _ => false

/-! ### Applying a row update -/

/-- A 64-bit word at a device-physical address, as the update engine reads STEP (R194); none on a poisoned line (R285). -/
def State.physWord (s : State) (pa : Nat) : Option Nat :=
  match fld pa 52 4 with
  | 0x0 | 0x1 | 0x2 => if s.peekPoison pa then none else some (s.peekN pa 8)
  | 0xC => some (leNat (s.mem.readN (scratchKey (fld pa 20 16) (fld pa 0 16)) 8))
  | 0xD => some (leNat (s.mem.readN (scratchKey (coreInCluster (fld pa 21 10) (fld pa 8 5)) (fld pa 13 8 * 256 + fld pa 0 8)) 8))
  | 0xE => some (leNat (s.mem.readN (chipKey (fld pa 20 16) (fld pa 0 15)) 8))
  | _ => some 0

/-- The number of row updates of a row under a step tag so far (R193, J). -/
def State.updatesOf (s : State) (row tag : Nat) : Nat :=
  match s.applied.find? fun x => x.1 == row && x.2.1 == tag with
  | some x => x.2.2
  | none => 0

/-- Counts one more. -/
def State.countUpdate (s : State) (row tag : Nat) : State :=
  let n := s.updatesOf row tag + 1
  { s with applied := (row, tag, n) :: s.applied.filter fun x => !(x.1 == row && x.2.1 == tag) }

/-- Applies a row update (R191): the state, its flags and whether the row was updated. Unless `force` is set, a flag that the
captured FCTL enables leaves the row unchanged (R398). Poison stops the partition. `cn` and `slot` are those for which the row is
written: its ticket's, or a TSTEP's. -/
def State.applyRow (s : State) (u : RowUpd) (force : Bool) (cn slot : Nat) : State × Nat × Bool :=
  let step := match u.tag with
    | some t => some t
    | none => s.physWord (u.desc + 0x18)
  match step with
  | none => (s.elementPoison u.cn u.tslot (u.desc + 0x18), 0, false)
  | some tag =>
    let row := (u.units.headD (0, 0, 0)).1
    match (s.countAt u.cn (s.unitHome u.part (u.units.headD (0, 0, 0)))).readUnits u.part u.units with
    | (.error pa, t) => (t.elementPoison u.cn u.tslot pa, 0, false)
    | (.ok bs, t) =>
      let r := rowOp u tag (t.updatesOf row tag) bs
      if !force && flagsTrap u.fctl r.2 then (t, r.2, false)
      else
        let t1 := t.writeUnits u.part cn slot u.units r.1
        ((t1.cleanLines (u.units.map (t1.unitHome u.part))).countUpdate row tag, r.2, true)

/-- Whether ticket n of a core still runs the element of a row update. -/
def State.rowWaiting (s : State) (u : RowUpd) : Bool :=
  let t := (s.core u.cn).ticket u.tslot
  t.live && t.st == .pending && t.running && t.seq == u.seq && t.elem == u.elem

/-- Whether an element is the last of its identifier tile. -/
def State.lastEntry (s : State) (cn n : Nat) : Bool :=
  let t := (s.core cn).ticket n
  ((s.core cn).tile (t.stile.getD 0)).bytes / 8 ≤ t.elem + 1

/-- The element of a row update ends at its ticket (R196, R398). -/
def State.answerRow (s : State) (u : RowUpd) (flags : Nat) : State :=
  if s.rowWaiting u then s.elementEnd s u.cn u.tslot flags (s.lastEntry u.cn u.tslot) else s

/-- ROW_UPDATE (R191, R196): request i is applied, or buffered for a STEPPED table. -/
def State.rowUpdate (s : State) (i : Nat) : State :=
  if !s.canPerform i then s
  else match s.net[i]? with
    | none => s
    | some r =>
      match r.op with
      | .row u =>
        let s1 := s.dropReq i
        if u.mode = 2 then
          if (s1.part u.part).status = .fatal then s1
          else ({ s1 with buffered := s1.buffered ++ [u] }).answerRow u 0
        else
          let (t, flags, _) := s1.applyRow u false u.cn (ticketSlot u.tslot)
          t.answerRow u flags
      | _ => s

/-! ### Steps (R194, R195) -/

/-- Whether a ticket takes a step tag: GATHER.pf takes none (R194). -/
def Ticket.tagged (t : Ticket) : Bool :=
  match instrOf t.word with
  | .gather _ _ _ f .. => f == 0
  | .gatherp .. | .scatter .. | .scatadd .. => true
  | _ => false

/-- Whether a ticket sends contributions. -/
def Ticket.contributes (t : Ticket) : Bool :=
  match instrOf t.word with
  | .scatter .. | .scatadd .. => true
  | _ => false

/-- The descriptor address in a ticket's binding word (R214). -/
def Ticket.descVa (t : Ticket) : Nat := t.bind.toNat / 64 * 64

/-- Whether a pending ticket or a granted instruction of the table still stands before the end of step s (R195): for a BOUNDED one the
SCATTERs and SCATADDs, which have no destination tile. -/
def State.stepBlocked (s : State) (desc mode k step : Nat) : Bool :=
  let inStep (tag : Nat) : Bool := if mode = 1 then tag + k ≤ step else tag = step
  mode != 0 && s.cores.any fun c =>
    let p := s.partNo c.1
    (s.part p).status != .fatal &&
      (c.2.strands.toList.any (fun t => t.holds.any fun h => match h.2 with
        | .tilesGranted dst _ d tag => d == desc && (mode == 2 || dst.isNone) && inStep tag.toNat
        | _ => false) ||
      c.2.tickets.toList.any fun t => t.live && t.st == .pending && t.bind != 0 && t.tagged && (mode == 2 || t.contributes) &&
        inStep t.tag.toNat && s.tableKey c.1 p t.descVa == desc)

/-- Whether a STEPPED TSTEP waits at the home of a table, which then holds every grant (R195). -/
def State.grantsHeld (s : State) (desc : Nat) : Bool :=
  s.net.any fun q => match q.op with
    | .tstep d mode _ _ waits => d == desc && mode == 2 && waits
    | _ => false

/-- STEP_TAG_GRANT (R194): the home reads STEP and grants the request. -/
def State.stepTagGrant (s : State) (i : Nat) : State :=
  if !s.canPerform i then s
  else match s.net[i]? with
    | none => s
    | some r =>
      match r.op with
      | .stepTag desc =>
        if s.grantsHeld desc then s
        else match (s.dropReq i).descAt r 8 with
        | (none, t) => t
        | (some bs, t) =>
          let one (h : Addr × Hold) : Addr × Hold :=
            match h.2 with
            | .tilesAsked d l rid => if rid = r.rid then (h.1, .tilesGranted d l desc (BitVec.ofNat 64 (leNat bs))) else h
            | _ => h
          t.modStrand r.src r.slot fun u => { u with holds := u.holds.map one }
      | _ => s

/-- Contributions in the order of step 3 of R195. -/
def contribBefore (a b : RowUpd) : Bool :=
  a.cn < b.cn || (a.cn == b.cn && (a.seq < b.seq || (a.seq == b.seq && a.elem ≤ b.elem)))

/-- Applies buffered contributions in order for a TSTEP's request, with the OR of their flags. -/
def State.applyAll (s : State) (r : Req) : List RowUpd → Nat → State × Nat
  | [], f => (s, f)
  | u :: us, f =>
    let (t, g, _) := s.applyRow u true r.src r.slot
    t.applyAll r us (f ||| g)

/-- TSTEP_REQUEST (R195): the home performs the TSTEP once nothing of the ending step is outstanding, and holds the table's grants
from its arrival. It acknowledges when its writes are performed. -/
def State.tstepRequest (s : State) (i : Nat) : State :=
  if !s.canPerform i then s
  else match s.net[i]? with
    | none => s
    | some r =>
      match r.op with
      | .tstep desc mode k seq _ =>
        if getKey s.stepped r.src = some seq then (s.dropReq i).answerHold r.src r.slot r.rid 0 none
        else match (s.dropReq i).descAt r 8 with
          | (none, t) => t
          | (some bs, t) =>
            let step := leNat bs
            let mine (u : RowUpd) : Bool := mode == 2 && u.desc == desc && u.tag == some step
            let due := sortBy (t.buffered.filter mine) contribBefore
            if s.stepBlocked desc mode k step || due.any (fun u => u.units.any fun x => s.lineHeld x.1 r.rid) then
              { s with net := s.net.set i { r with op := .tstep desc mode k seq true } }
            else
              let (t1, flags) := { t with buffered := t.buffered.filter fun u => !mine u }.applyAll r due 0
              let t2 := (t1.writeHome r.home (leBytes 8 (step + 1)) (effPolicy r.home.pol 0)).ownAt r.part r.src r.slot none r.home 8
              { t2 with stepped := putKey t2.stepped r.src seq }.answerAfter r (BitVec.ofNat 64 flags) none
      | _ => s

end Sys2Proof.Machine
end

