-- ==== Sys2Proof/Machine/Copies.lean ====
section
/-! DEFINITION. SAMPLE (R266, R267, R396), and the words of the copy and collective engines with their elements: COPY and
SHUFFLE (R216 to R218, R342, R343, R403), GET and PUT (R360, R389, R390), COLL (R229, R338, R339). -/
namespace Sys2Proof.Machine

/-! ### SAMPLE -/

/-- A score: `none` is +∞ (R266). -/
abbrev Score := Option Int

/-- Whether a score is above another. -/
def Score.above : Score → Score → Bool
  | none, none => false
  | none, some _ => true
  | some _, none => false
  | some x, some y => y < x

/-- The choice of R266 over the logits from index i on: the best index so far with its score, and whether a NaN was seen. -/
def sampleBest (key sid draw : Nat) : List Nat → Nat → Option (Nat × Score) → Bool → Option (Nat × Score) × Bool
  | [], _, best, nan => (best, nan)
  | x :: xs, i, best, nan =>
    let go (sc : Score) : Option (Nat × Score) × Bool :=
      let better := match best with
        | none => true
        | some b => sc.above b.2
      sampleBest key sid draw xs (i + 1) (if better then some (i, sc) else best) nan
    match fDec 8 x with
    | .nan _ => sampleBest key sid draw xs (i + 1) best true
    | .inf true => sampleBest key sid draw xs (i + 1) best nan
    | .inf false => go none
    | .fin n m e =>
      let r := fld (philox key (sid * 2 ^ 64 + (draw + i) % 2 ^ 64)) 8 24
      go (some (scaledInt n m e (-(fxBits : Int)) + fxGumbel r))

/-- Whether a VSWITCH of the executing core's partition is being performed (R202). -/
def State.switching (s : State) : Bool :=
  s.net.any fun r => r.part == s.partNo s.cur.cn && match r.op with
    | .vswitch _ => true
    | _ => false

/-- SAMPLE (R266, R267, R203, R396): the checks, the waits, the note of VSEL, then the choice, the record and the count. TOKEN of the record
is the sampled index also with d = 0 (DESIGN CHOICE, log 97). -/
def execSample (d a t : BitVec 5) (s : State) : Out :=
  let va := s.x a
  s.settle (match s.scalarTarget false true va 8 with
    | (.error (c, f), _) => .trap c f
    | (.ok g, s1) =>
      if g.isMcast || (g.home.own s.cur.cn && s1.lockRefuses s.me.sup g.home 8) then .trap 0x07 va
      else if !s.tileTest fun c => (c.tile t.toNat).st == .ready then .wait
      else match s.held with
        | some (.sample vsel) =>
          if !s1.ownQuiet then .wait
          else
            let xs := elems 4 (s1.tileBytes s.cur.cn (s.tile t.toNat))
            let (best, nan) := sampleBest s.src.rkey.toNat s.src.sid.toNat s.src.draw.toNat xs 0 none false
            let token := match best with
              | none => 0xFFFFFFFF
              | some b => b.1
            let v := vsel.toNat
            let follow := fld v 16 1
            let rec_ := follow * 2 ^ 49 + fld v 48 1 * 2 ^ 48 + (if follow = 1 then fld v 0 16 else 0) * 2 ^ 32 + token % 2 ^ 32
            let f1 := s1.modMe fun u => { u with draw := s.src.draw + BitVec.ofNat 64 xs.length }
            .done ((f1.sendStore g va (leBytes 8 rec_) 0 none).setX 1 d (BitVec.ofNat 64 token)) (flagIf nan fNV)
        | _ => if s.switching then .wait else .start .sample)

/-! ### Issue of COPY, SHUFFLE, GET, PUT and COLL -/

/-- The ticket of an instruction that names no table slot (R199, R214). -/
def State.plainTicket (s : State) (ctl : Nat) (word : IWord) (xa : Word) : NewTicket :=
  { ctl := ctl, word := word, xa := xa, xb := 0, bind := 0, tag := 0, sel := s.srcPart.vsel.sel, refs := s.srcPart.vsel.follow
    dst := none, src := none, src2 := none, drain := false, cmd := [], target := none }

/-- The target of an address that translates at issue, for a multicast test only (R342, R389). -/
def State.mcastTest (s : State) (rd wr : Bool) (va : Word) : Option Target :=
  match (s.resolve (s.access rd wr) va 16).1 with
  | .ok g => if g.isMcast then some g else none
  | .error _ => none

/-- Whether the translation of an address has to wait (R165). -/
def State.walkHeld (s : State) (rd wr : Bool) (va : Word) : Bool :=
  match (s.resolve (s.access rd wr) va 16).1 with
  | .ok _ => false
  | .error c => c == heldCause

/-- COPY (R216, R342). -/
def execCopy (k : BitVec 1) (d a t c : BitVec 5) (s : State) : Out :=
  let va := s.x a
  s.settle (
    if va.toNat % 32 ≠ 0 then .trap 0x04 va
    else match s.readStrand va 32 with
      | (.error e, _) => readStop e
      | (.ok bs, u) =>
        let src := wordAt bs 0
        let dst := wordAt bs 8
        let n := leAt bs 16 8
        let role := leAt bs 24 8
        if 3 ≤ role || n = 0 || 2 ^ 40 < n then .trap 0x07 s.openAddr
        else if role ≠ 2 && src.toNat % 16 ≠ 0 then .trap 0x04 src
        else if role ≠ 1 && dst.toNat % 16 ≠ 0 then .trap 0x04 dst
        else if n % 16 ≠ 0 then .trap 0x04 (BitVec.ofNat 64 n)
        else if role = 0 && t ≠ 0 then .trap 0x07 s.openAddr
        else if (role ≠ 2 && u.walkHeld true false src) || (role ≠ 1 && u.walkHeld false true dst) then .wait
        else if role ≠ 2 && (u.mcastTest true false src).isSome then .trap 0x07 src
        else if role ≠ 1 && (u.mcastTest false true dst).isSome then .trap 0x07 dst
        else if role ≠ 0 && (s.tile t.toNat).bytes < n then .trap 0x0C (BitVec.ofNat 64 t.toNat)
        else u.issueTicket d { s.plainTicket c.toNat (encode (.copy k d a t c)) va with
          cmd := bs
          dst := if role = 1 then some t.toNat else none
          src := if role = 2 then some t.toNat else none })

/-- SHUFFLE (R218, R403). -/
def execShuffle (k : BitVec 1) (d a t c : BitVec 5) (s : State) : Out :=
  let va := s.x a
  s.settle (
    if va.toNat % 16 ≠ 0 then .trap 0x04 va
    else match s.readStrand va 16 with
      | (.error e, _) => readStop e
      | (.ok bs, u) =>
        let tile := leAt bs 0 1
        let idx := leAt bs 8 4
        let n := leAt bs 4 4
        if 8 < leAt bs 1 1 || n = 0 || 32 ≤ tile || leAt bs 2 2 ≠ 0 || leAt bs 12 4 ≠ 0 || 0x10000 < idx + 4 * n then
          .trap 0x07 s.openAddr
        else if idx % 4 ≠ 0 then .trap 0x04 (BitVec.ofNat 64 idx)
        else u.issueTicket d { s.plainTicket c.toNat (encode (.shuffle k d a t c)) va with
          cmd := bs, dst := some t.toNat, src := some tile })

/-- GET (R360). -/
def execGet (k : BitVec 1) (d a t c : BitVec 5) (s : State) : Out :=
  let va := s.x a
  s.settle (
    if va.toNat % 16 ≠ 0 then .trap 0x04 va
    else s.issueTicket d { s.plainTicket c.toNat (encode (.get k d a t c)) va with dst := some t.toNat })

/-- The targets of an armed PUT: n units of 16 bytes, translated whole at issue (R389), with the refusals of its elements but for
that of a locked table, which its core makes (R233). -/
def State.putTargets (s : State) (va : Word) : Nat → Except (Nat × Word) (List Target) × State
  | 0 => (.ok [], s)
  | n + 1 =>
    match s.resolve (s.access false true) va 16 with
    | (.error c, t) => (.error (c, if c = 0x03 then 0 else va), t)
    | (.ok g, t) =>
      let device := match g.home with
        | .dev .. => true
        | _ => false
      if device then (.error (0x04, va), t)
      else if g.win ≠ 0 || t.stranger g then (.error (0x07, va), t)
      else match t.putTargets (va + 16) n with
        | (.error e, u) => (.error e, u)
        | (.ok gs, u) => (.ok (g :: gs), u)

/-- Sends the units of an armed PUT of ticket n: 64 bytes depart in each cycle from `first` (R226). -/
def State.sendPut (s : State) (n first : Nat) (va : Word) (gs : List Target) (bs : List Byte) : State :=
  (List.range gs.length).foldl (fun t u =>
    match gs[u]? with
    | none => t
    | some g =>
      let data := slice bs (16 * u) 16
      let one (h : Home) (m : Bool) : Req := { t.request h (.store data 0 m) (va + BitVec.ofNat 64 (16 * u)) with
        slot := ticketSlot n, depart := some (first + u / 4) }
      match g.home with
      | .mcast die dom off => t.send ((t.mcastMembers t.cur.cn die dom).map fun cn => one (.scratch cn off) true)
      | h => t.send [one h false]) s

/-- Whether a target lies on another device (R178). -/
def Target.far (g : Target) : Bool := g.region == 2 || g.home.far

/-- Notes that a ticket has touched another device (R178). -/
def State.touchFar (s : State) (cn n : Nat) (c : Bool) : State :=
  if c then s.modCore cn fun x => x.setTicket n { x.ticket n with fabric := true } else s

/-- Marks ticket n as an armed PUT whose requests depart from a cycle on. -/
def State.armTicket (s : State) (n cycle : Nat) : State :=
  s.modMyCore fun c => c.setTicket n { c.ticket n with cmd := leBytes 8 cycle }

/-- PUT (R389, R390). -/
def execPut (k : BitVec 1) (d a t c : BitVec 5) (s : State) : Out :=
  let va := s.x a
  let bytes := (s.tile t.toNat).bytes
  let new := { s.plainTicket c.toNat (encode (.put k d a t c)) va with src := some t.toNat, drain := true }
  let badMcast := match s.mcastTest false true va with
    | some g => s.stranger g || 0x10000 < fld g.pa 0 16 + bytes
    | none => false
  s.settle (
    if va.toNat % 16 ≠ 0 then .trap 0x04 va
    else if s.walkHeld false true va then .wait
    else if badMcast then .trap 0x07 va
    else match s.leave (ceilDiv bytes 64) with
      | .violation f => .trap 0x09 f
      | .free => s.issueTicket d new
      | .armed _ cycle =>
        match s.putTargets va (bytes / 16) with
        | (.error (e, f), _) => .trap e f
        | (.ok gs, u) =>
          match u.issueTicket d new with
          | .done w fl =>
            if !u.ownQuiet then .wait
            else
              let n := (u.myCore.freeSlot).getD 0
              .done ((((w.armTicket n cycle).touchFar s.cur.cn n (gs.any Target.far)).disarm).sendPut n cycle va gs (u.tileBytes s.cur.cn (s.tile t.toNat))) fl
          | r => r)

/-- COLL (R229, R338). -/
def execColl (k : BitVec 1) (d a : BitVec 5) (o : BitVec 3) (t c : BitVec 5) (s : State) : Out :=
  let cn := s.cur.cn
  let dom := fld (s.x a).toNat 0 6
  let member := (s.instanceOf (dieOf cn) dom).any fun x => x.1 == dieOf cn && x.2.2.has x.1 cn
  s.settle (
    if !member then .trap 0x07 (BitVec.ofNat 64 dom)
    else s.issueTicket d { s.plainTicket c.toNat (encode (.coll k d a o t c)) (s.x a) with
      src := some t.toNat, dst := some (t.toNat + 1) })

/-! ### Elements of the copy engine -/

/-- A fault address of a ticket that no rule names: a free value. -/
def State.openTicketAddr (s : State) (cn n : Nat) : Word := Config.freeReg (2 ^ 80 + s.cycle * 2 ^ 24 + cn * 2 ^ 6 + n)

/-- A stop in an element: poison met by its page walk stops the partition as poisoned data does (R271, R285). -/
def State.elemStop (s : State) (cn n : Nat) : Stop → ElemEnd
  | .fault c a =>
    if c = heldCause then .sent s
    else if c % 2 ^ 8 = 0x13 then .stopped (s.elementPoison cn n (c / 2 ^ 8))
    else .fault s c a
  | .order => .sent s
  | .poison pa => .stopped (s.elementPoison cn n pa)

/-- The target of one unit to be read (R343, R360). -/
def State.readTarget (s : State) (a : Access) (va : Word) (n : Nat) : Except Stop Target × State :=
  match s.resolve { a with rd := true, wr := false } va n with
  | (.error c, t) => (.error (.fault c va), t)
  | (.ok g, t) =>
    if g.win ≠ 0 || g.isMcast then (.error (.fault 0x07 va), t)
    else match g.home with
      | .dev .. => (.error (.fault 0x04 va), t)
      | h => if t.pendingTo a.cn h || t.homeHeld h then (.error .order, t) else (.ok g, t)

/-- The target of one unit to be written by a PUT, or by an element that takes no multicast address (`mc` false). -/
def State.storeTarget (s : State) (mc : Bool) (a : Access) (va : Word) (n : Nat) : Except Stop Target × State :=
  match s.unitTarget mc a va n with
  | (.ok g, t) =>
    if !g.isMcast then (.ok g, t)
    else match g.home with
      | .mcast die dom off =>
        let ms := t.mcastMembers a.cn die dom
        if !mc || ms.isEmpty then (.error (.fault 0x07 va), t)
        else if ms.any fun m => t.pendingTo a.cn (.scratch m off) then (.error .order, t)
        else (.ok g, t)
      | _ => (.error (.fault 0x07 va), t)
  | r => r

/-- The targets of k units of 16 bytes from an address; the first stop decides. -/
def targetsOf (f : State → Word → Except Stop Target × State) : Nat → Word → State → Except Stop (List Target) × State
  | 0, _, s => (.ok [], s)
  | k + 1, va, s =>
    match f s va with
    | (.error e, t) => (.error e, t)
    | (.ok g, t) => match targetsOf f k (va + 16) t with
      | (.error e, u) => (.error e, u)
      | (.ok gs, u) => (.ok (g :: gs), u)

/-- Whether a core's PERM registers admit a cluster of the partition (R217). -/
def State.admits (s : State) (cn rank : Nat) : Bool :=
  isDense cn || ((s.core cn).regs.perm[rank / 64]?.getD 0).getLsbD (rank % 64)

/-- The device, core and offset whose scratchpad a target names through region 0xC or a cluster window (R217), if that core is not
the issuer; a core of this device has none as its device. -/
def Target.thirdCore (g : Target) (cn : Nat) : Option (Option Nat × Nat × Nat) :=
  if !(g.region == 0xC || g.region == 0xD) then none
  else match g.home with
    | .scratch c off => if c = cn then none else some (none, c, off)
    | .remote d c off => some (some d, c, off)
    | _ => none

/-- The global scratchpad address of a third core's byte (R129). -/
def thirdAddr (x : Option Nat × Nat × Nat) : Word :=
  BitVec.ofNat 64 (0xC * 2 ^ 52 + (x.1.getD 0xFFFF) * 2 ^ 36 + x.2.1 * 2 ^ 20 + x.2.2)

/-- Whether one side of an element is refused: a core of this device by its PERM registers, one of another device by that device's
answer, a free choice (R217; log 86). -/
def State.sideRefused (s : State) (rank : Nat) (xs : List (Option Nat × Nat × Nat)) : Bool × State :=
  if xs.any fun x => x.1.isNone && !s.admits x.2.1 rank then (true, s)
  else if xs.any fun x => x.1.isSome then ((s.choose 2).1 == 1, (s.choose 2).2)
  else (false, s)

/-- The third-party test of an element (R217): the refusing side's address of the element's first byte, the source first. In a cluster
window every unit has cores of its own: a refusal of any of them refuses the element, and the address is that of its first third-party
unit (DESIGN CHOICE, log 95). -/
def State.thirdParty (s : State) (cn : Nat) (pairs : List (Target × Target)) : Option Word × State :=
  let third := pairs.filterMap fun p => match p.1.thirdCore cn, p.2.thirdCore cn with
    | some x, some y => some (x, y)
    | _, _ => none
  if isDense cn || third.isEmpty then (none, s)
  else
    let rank := (s.partFor cn).clusterRank cn
    let first := third.headD ((none, 0, 0), (none, 0, 0))
    match s.sideRefused rank (third.map (·.1)) with
    | (true, t) => (some (thirdAddr first.1), t)
    | (false, t) => match t.sideRefused rank (third.map (·.2)) with
      | (true, u) => (some (thirdAddr first.2), u)
      | (false, u) => (none, u)

/-- An element of GET, PUT or COPY: the range of one element of `total` bytes from src to dst. Its addresses are translated and checked
first; where one lies on another device, that device's answer may be the error of R278, a free choice made once, since an element that
faults has no effect (R213). Then its units are on their way. -/
def State.copyElement (s : State) (cn n : Nat) (src dst : Word) (total : Nat) (mc third : Bool) : ElemEnd :=
  let t := (s.core cn).ticket n
  let a := t.access cn (s.partNo cn)
  let off := 4096 * t.elem
  let units := (min 4096 (total - off)) / 16
  let at_ (b : Word) : Word := b + BitVec.ofNat 64 off
  match targetsOf (fun u va => u.readTarget a va 16) units (at_ src) s with
  | (.error e, u) => u.elemStop cn n e
  | (.ok gs, u) =>
    match targetsOf (fun w va => w.storeTarget mc a va 16) units (at_ dst) u with
    | (.error e, w) => w.elemStop cn n e
    | (.ok hs, w) =>
      let pairs := gs.zip hs
      match if third then w.thirdParty cn pairs else (none, w) with
      | (some addr, x) => .fault x 0x07 addr
      | (none, x) =>
        let us := (List.range units).zip pairs |>.map fun p =>
          ({ va := at_ src + BitVec.ofNat 64 (16 * p.1), src := p.2.1.home, to_ := at_ dst + BitVec.ofNat 64 (16 * p.1)
             dst := p.2.2.home } : Unit16)
        let y := x.touchFar cn n ((gs ++ hs).any Target.far)
        match us.findSome? fun u => if u.src.far then some u.va else if u.dst.far then some u.to_ else none with
        | none => .ended (y.sendUnits cn n us) 0 (total ≤ off + 4096)
        | some addr =>
          let (no, z) := y.farRefuses (.remoteMcast 0)
          if no then .fault z 0x14 addr else .ended (z.sendUnits cn n us) 0 (total ≤ off + 4096)

/-- Reads a ticket's descriptor or command again after a restore (R214). -/
def State.withCommand (s : State) (cn n len : Nat) (k : State → List Byte → ElemEnd) : ElemEnd :=
  let t := (s.core cn).ticket n
  if !t.cmd.isEmpty then k s t.cmd
  else match s.readBytes (t.access cn (s.partNo cn)) t.xa len with
    | (.error e, u) => u.elemStop cn n e
    | (.ok bs, u) => k (u.modCore cn fun c => c.setTicket n { c.ticket n with cmd := bs }) bs

/-- The raw address of a tile of a core, as an untranslated one. -/
def State.tileVa (s : State) (cn : Nat) (t : Option Nat) : Word := BitVec.ofNat 64 ((s.core cn).tile (t.getD 0)).base

/-- The bytes of a tile of a core. -/
def State.tileLen (s : State) (cn : Nat) (t : Option Nat) : Nat := ((s.core cn).tile (t.getD 0)).bytes

/-- An element of COPY (R216, R217, R343). -/
def State.copyRun (s : State) (cn n : Nat) : ElemEnd :=
  let t := (s.core cn).ticket n
  s.withCommand cn n 32 fun u bs =>
    let src := if t.stile.isSome then s.tileVa cn t.stile else wordAt bs 0
    let dst := if t.dtile.isSome then s.tileVa cn t.dtile else wordAt bs 8
    u.copyElement cn n src dst (leAt bs 16 8) false (t.stile.isNone && t.dtile.isNone)

/-- Whether a unit of an armed PUT's element e, or of one before it, is still on its way (R390). -/
def State.putPending (s : State) (cn n e : Nat) : Bool :=
  let t := (s.core cn).ticket n
  s.net.any fun r => r.src == cn && r.slot == ticketSlot n && match r.op with
    | .store .. => t.elementOf r ≤ e
    | _ => false

/-- The refusal of a unit of the running element, or of one before it, of an armed PUT. -/
def Ticket.refusal (t : Ticket) : Option (Nat × Word) :=
  match t.answer with
  | some (c, bs) => if (wordAt bs 0 - t.xa).toNat / 4096 ≤ t.elem then some (c, wordAt bs 0) else none
  | none => none

/-- An element of PUT (R390): one of an armed PUT ends when its units have arrived, and faults with the refusal of one of them,
when the later units no longer depart. -/
def State.putRun (s : State) (cn n : Nat) : ElemEnd :=
  let t := (s.core cn).ticket n
  if t.armedAt.isNone then s.copyElement cn n (s.tileVa cn t.stile) t.xa (s.tileLen cn t.stile) true false
  else if let some (c, f) := t.refusal then
    if s.lossesOf cn (ticketSlot n) then .sent s
    else .fault { s with net := s.net.filter fun r => !r.afterElement cn n t.elem t } c f
  else if s.putPending cn n t.elem then .sent s
  else .ended s 0 (s.tileLen cn t.stile ≤ 4096 * (t.elem + 1))

/-- An element of GET (R360). -/
def State.getRun (s : State) (cn n : Nat) : ElemEnd :=
  let t := (s.core cn).ticket n
  s.copyElement cn n t.xa (s.tileVa cn t.dtile) (s.tileLen cn t.dtile) false false

/-- A unit of SHUFFLE (R218, R403). -/
def State.shuffleRun (s : State) (cn n : Nat) : ElemEnd :=
  let t := (s.core cn).ticket n
  s.withCommand cn n 16 fun u bs =>
    if u.pendingTo cn (.scratch cn 0) then .sent s
    else
      let size := 16 * 2 ^ (leAt bs 1 1)
      let i := t.elem
      let j := leNat (u.scratchBytes cn (leAt bs 8 4 + 4 * i) 4)
      let src := (s.core cn).tile (t.stile.getD 0)
      let dst := (s.core cn).tile (t.dtile.getD 0)
      if src.bytes / size ≤ j then .fault u 0x07 (u.openTicketAddr cn n)
      else if dst.bytes < (i + 1) * size then .fault u 0x0C 0
      else if u.locked t.sup cn (dst.base + i * size) size then .fault u 0x07 (BitVec.ofNat 64 (dst.base + i * size))
      else
        let us := (List.range (size / 16)).map fun q =>
          let a := src.base + j * size + 16 * q
          let b := dst.base + i * size + 16 * q
          ({ va := BitVec.ofNat 64 a, src := .scratch cn a, to_ := BitVec.ofNat 64 b, dst := .scratch cn b } : Unit16)
        .ended (u.sendUnits cn n us) 0 (leAt bs 4 4 ≤ i + 1)

/-! ### Collectives -/

/-- The operation of a COLL ticket. -/
def Ticket.collOp (t : Ticket) : Nat :=
  match instrOf t.word with
  | .coll _ _ _ o _ _ => o.toNat
  | _ => 0

/-- One combination of two elements, either of which may be absent (R229). -/
def combine (op : Nat) (a b : Option Nat) : Option Nat × Nat :=
  match a, b with
  | some x, some y =>
    let r := match op with
      | 0 => fAdd 8 0 false x y
      | 1 => ((x + y) % 2 ^ 32, 0)
      | 2 => fMinMax true 8 false x y
      | _ => fMinMax false 8 false x y
    (some r.1, r.2)
  | some x, none => (some x, 0)
  | none, y => (y, 0)

/-- The pairwise tree over a list whose length is a power of two. -/
def combineTree (op : Nat) : (levels : Nat) → List (Option Nat) → Option Nat × Nat
  | 0, ws => (ws.headD none, 0)
  | n + 1, ws =>
    let pairs := (List.range (ws.length / 2)).map fun j => combine op (ws.getD (2 * j) none) (ws.getD (2 * j + 1) none)
    let up := combineTree op n (pairs.map (·.1))
    (up.1, pairs.foldl (fun f p => f ||| p.2) up.2)

/-- The result of a collective over the members' tile bytes in ascending core number, with every flag raised (R229, R339). -/
def collResult (op : Nat) (tiles : List (List Byte)) : List Byte × Nat :=
  if op = 4 then (tiles.headD [], 0)
  else
    let levels := (List.range 16).find? (fun k => tiles.length ≤ 2 ^ k) |>.getD 16
    let n := ((tiles.headD []).length) / 4
    let rs := (List.range n).map fun i =>
      let ws := tiles.map fun b => some (leAt b (4 * i) 4)
      combineTree op levels (ws ++ List.replicate (2 ^ levels - tiles.length) none)
    (rs.flatMap fun r => leBytes 4 (r.1.getD 0), rs.foldl (fun f r => f ||| r.2) 0)

/-- One member's ticket at the end of a collective (R339). Whether the flags of the element that faults with 0x0D join TFLAGS is not
said: those of a COLL do, since they go to every member's ticket; those of any other element do not (DESIGN CHOICE, log 77). -/
def State.collEnd (s : State) (cn n : Nat) (res : List Byte) (flags : Nat) : State :=
  let t := (s.core cn).ticket n
  let dst := (s.core cn).tile (t.dtile.getD 0)
  if dst.bytes < res.length then
    (s.modCore cn fun c => c.setTicket n { c.ticket n with tflags := t.tflags ||| flags }).faultTicket cn n 0x0C 0
  else if flagsTrap t.fctl flags then
    (s.modCore cn fun c => c.setTicket n { c.ticket n with tflags := t.tflags ||| flags }).faultTicket cn n 0x0D (BitVec.ofNat 64 flags)
  else if s.locked t.sup cn dst.base res.length then s.faultTicket cn n 0x07 (BitVec.ofNat 64 dst.base)
  else s.elementEnd (s.sendBytes cn n dst.base res) cn n flags true

end Sys2Proof.Machine
end

