-- ==== Sys2Proof/Machine/Dense.lean ====
section
/-! DEFINITION. The dense complex (R242 to R255): matrix commands and their checks (R244, R245, R249, R378, R381), the words of
MAJ 0x30 to 0x35 (R313, R320, R325, R374, R377, R391), and the elements of the array (R107, R110, R122, R246 to R252). -/
namespace Sys2Proof.Machine

/-! ### Matrix commands (R244, R245) -/

/-- A matrix command. -/
structure MatCmd where
  ctl : Nat
  mb : Nat
  nb : Nat
  k : Nat
  accb : Nat
  atile : Nat
  btile : Nat
  pad : Nat
  aaddr : Nat
  baddr : Nat
  astr : Nat
  bstr : Nat
  mdata : Nat
  ascl : Nat
  bscl : Nat
  deriving DecidableEq, Repr

/-- The command in 64 bytes. -/
def matCmd (bs : List Byte) : MatCmd :=
  { ctl := leAt bs 0 4, mb := leAt bs 4 2, nb := leAt bs 6 2, k := leAt bs 8 4, accb := leAt bs 12 1, atile := leAt bs 13 1
    btile := leAt bs 14 1, pad := leAt bs 15 1, aaddr := leAt bs 16 8, baddr := leAt bs 24 8, astr := leAt bs 32 4
    bstr := leAt bs 36 4, mdata := leAt bs 40 8, ascl := leAt bs 48 8, bscl := leAt bs 56 8 }

/-- Fields of CTL (R244). -/
def MatCmd.rect (c : MatCmd) : Nat := fld c.ctl 16 8
def MatCmd.zero (c : MatCmd) : Bool := bit c.ctl 12
def MatCmd.bsrc (c : MatCmd) : Nat := fld c.ctl 10 2
def MatCmd.asrc (c : MatCmd) : Nat := fld c.ctl 8 2
def MatCmd.bfmt (c : MatCmd) : Nat := fld c.ctl 4 4
def MatCmd.afmt (c : MatCmd) : Nat := fld c.ctl 0 4

/-- The kinds of product. -/
inductive MatKind where
  | dense
  | sparse
  | rot
  deriving DecidableEq, Repr

/-- The bytes of n elements of an operand format (R245). -/
def fmtBytes (fmt n : Nat) : Nat := if fmt = 9 then 2 * n else if fmt = 13 then n / 2 else n

/-- The elements of a row of A as stored (R245, R247). -/
def MatCmd.aElems (c : MatCmd) (kind : MatKind) : Nat := if kind = .sparse then c.k / 2 else c.k

/-- The bytes from an operand's base to the end of its last row. -/
def extentOf (rows stride rowBytes : Nat) : Nat := (rows - 1) * stride + rowBytes

/-- The ranges of one operand in its space, from its bases: rows, then scales, then metadata (R245, R247). -/
def MatCmd.aRanges (c : MatCmd) (kind : MatKind) : List (Nat × Nat) :=
  [(c.aaddr, extentOf (128 * c.mb) c.astr (fmtBytes c.afmt (c.aElems kind)))] ++
    (if c.afmt = 13 then [(c.ascl, 4 * (128 * c.mb * (c.k / 32)))] else []) ++
    (if kind = .sparse then [(c.mdata, 128 * c.mb * (c.k / 8))] else [])
def MatCmd.bRanges (c : MatCmd) : List (Nat × Nat) :=
  [(c.baddr, extentOf (128 * c.nb) c.bstr (fmtBytes c.bfmt c.k))] ++
    (if c.bfmt = 13 then [(c.bscl, 4 * (128 * c.nb * (c.k / 32)))] else [])

/-- Whether every range ends at or below a limit. -/
def within (rs : List (Nat × Nat)) (limit : Nat) : Bool := rs.all fun r => r.1 + r.2 ≤ limit

/-- A format pair of R245. -/
def pairOk (a b : Nat) : Bool := (a == 9 && b == 9) || ((a == 11 || a == 12) && (b == 11 || b == 12)) || (a == 13 && b == 13)

/-- The checks of R378 on the fields of a command, but for tile ranges: the first failing one. -/
def MatCmd.check (c : MatCmd) (kind : MatKind) (openAddr : Word) : Option (Nat × Word) :=
  match [c.aaddr, c.baddr, c.astr, c.bstr, c.mdata, c.ascl, c.bscl].find? fun x => x % 16 ≠ 0 with
  | some x => some (0x04, BitVec.ofNat 64 x)
  | none =>
    let fieldsOk := fld c.ctl 13 3 == 0 && fld c.ctl 24 8 == 0 && c.asrc != 3 && c.bsrc != 3 && pairOk c.afmt c.bfmt &&
      1 ≤ c.mb && c.mb ≤ 16 && 1 ≤ c.nb && c.nb ≤ 16 && c.k % 32 == 0 && 32 ≤ c.k && c.k ≤ 65536 &&
      c.accb + c.mb * c.nb ≤ 64 && c.pad == 0 && c.atile < 32 && c.btile < 32
    let rectOk := c.rect == 0 || kind == .rot
    let sparseOk := if kind = .sparse then c.afmt != 13 && c.mdata != 0 else c.mdata == 0
    let scaleOk := c.afmt == 13 || (c.ascl == 0 && c.bscl == 0)
    let strideOk := fmtBytes c.afmt (c.aElems kind) ≤ c.astr && fmtBytes c.bfmt c.k ≤ c.bstr
    let storeOk := (c.asrc != 1 || within (c.aRanges kind) 0x200000) && (c.bsrc != 1 || within c.bRanges 0x200000)
    let rotOk := kind != .rot || (c.asrc == 1 && c.bsrc == 1)
    if fieldsOk && rectOk && sparseOk && scaleOk && strideOk && storeOk && rotOk then none else some (0x07, openAddr)

/-- The tile whose BYTES a source tile range exceeds (R245). -/
def MatCmd.tileShort (c : MatCmd) (kind : MatKind) (bytes : Nat → Nat) : Option Nat :=
  if c.asrc = 0 && !within (c.aRanges kind) (bytes c.atile) then some c.atile
  else if c.bsrc = 0 && !within c.bRanges (bytes c.btile) then some c.btile
  else none

/-- The source tiles of a command: STILE and STILE2 (R205). -/
def MatCmd.tiles (c : MatCmd) : Option Nat × Option Nat :=
  match c.asrc == 0, c.bsrc == 0 with
  | true, true => (some c.atile, if c.atile = c.btile then none else some c.btile)
  | true, false => (some c.atile, none)
  | false, true => (some c.btile, none)
  | false, false => (none, none)

/-- The ticket of a matrix command at X[a] (R244, R378, R381). -/
def State.matrixWord (s : State) (d a c : BitVec 5) (kind : MatKind) (word : IWord) : Res :=
  let va := s.x a
  s.matrix (
    if va.toNat % 64 ≠ 0 then .trap 0x04 va
    else match s.readStrand va 64 with
      | (.error e, _) => readStop e
      | (.ok bs, t) =>
        let cmd := matCmd bs
        match cmd.check kind s.openAddr with
        | some (e, f) => .trap e f
        | none =>
          let ms := rotMembers s.cur.cn cmd.ctl
          if kind = .rot && !(ms.contains s.cur.cn && ms.all (s.partFor s.cur.cn).holds) then .trap 0x07 s.openAddr
          else match cmd.tileShort kind fun n => (s.tile n).bytes with
            | some n => .trap 0x0C (BitVec.ofNat 64 n)
            | none => t.issueTicket d { s.plainTicket c.toNat word va with
                cmd := bs, src := cmd.tiles.1, src2 := cmd.tiles.2, drain := true })

/-- MMUL (R246, R378). -/
def execMmul (k : BitVec 1) (d a c : BitVec 5) (s : State) : Out :=
  s.settle (s.matrixWord d a c .dense (encode (.mmul k d a c)))

/-- MMULS (R247, R378). -/
def execMmuls (k : BitVec 1) (d a c : BitVec 5) (s : State) : Out :=
  s.settle (s.matrixWord d a c .sparse (encode (.mmuls k d a c)))

/-- A new MROT whose match has ended already starts doomed (R250). -/
def State.markRot (s : State) (n : Nat) : State :=
  if s.myCore.mrotLost = 0 then s
  else s.modMyCore fun c => { c.setTicket n { c.ticket n with doomed := true } with mrotLost := c.mrotLost - 1 }

/-- MROT (R250, R381). -/
def execMrot (k : BitVec 1) (d a c : BitVec 5) (s : State) : Out :=
  let n := s.myCore.freeSlot.getD 0
  s.settle (match s.matrixWord d a c .rot (encode (.mrot k d a c)) with
    | .done t f => .done (if (t.myCore.ticket n).rots && isDense s.cur.cn then t.markRot n else t) f
    | r => r)

/-! ### MFETCH (R249) -/

/-- An MFETCH descriptor. -/
structure FetchCmd where
  src : Nat
  rowb : Nat
  nrows : Nat
  dst : Nat
  maske : Nat
  thr : Nat
  flags : Nat
  deriving DecidableEq, Repr

/-- The descriptor in 32 bytes. -/
def fetchCmd (bs : List Byte) : FetchCmd :=
  { src := leAt bs 0 8, rowb := leAt bs 8 4, nrows := leAt bs 12 4, dst := leAt bs 16 4, maske := leAt bs 20 4
    thr := leAt bs 24 4, flags := leAt bs 28 4 }

/-- The checks of R377. -/
def FetchCmd.check (c : FetchCmd) (openAddr : Word) : Option (Nat × Word) :=
  match [c.src, c.rowb, c.dst].find? fun x => x % 16 ≠ 0 with
  | some x => some (0x04, BitVec.ofNat 64 x)
  | none =>
    if 16 ≤ c.rowb && c.rowb ≤ 65536 && 1 ≤ c.nrows && c.dst + c.nrows * c.rowb ≤ 0x200000 && c.maske + c.nrows ≤ 2 ^ 20 &&
        c.flags < 2 then none
    else some (0x07, openAddr)

/-- MFETCH (R249, R377). -/
def execMfetch (k : BitVec 1) (d a c : BitVec 5) (s : State) : Out :=
  let va := s.x a
  s.settle (s.matrix (
    if va.toNat % 32 ≠ 0 then .trap 0x04 va
    else match s.readStrand va 32 with
      | (.error e, _) => readStop e
      | (.ok bs, t) =>
        match (fetchCmd bs).check s.openAddr with
        | some (e, f) => .trap e f
        | none => t.issueTicket d { s.plainTicket c.toNat (encode (.mfetch k d a c)) va with cmd := bs }))

/-! ### MCMD (R251, R374) -/

/-- The checks of R374 on the 72 bytes of a command: the header and the command of its kind. R251 gives cause 0x07 to every check of
R245 that fails, R374 the cause that R245 gives, 0x04 for a base or a stride: the model follows R374 (DEDUCED, log 89). -/
def mcmdCheck (bs : List Byte) (openAddr : Word) : Option (Nat × Word) :=
  let h := leAt bs 0 8
  let body := bs.drop 8
  let cmd := matCmd body
  let product (kind : MatKind) : Option (Nat × Word) :=
    if cmd.asrc = 0 || cmd.bsrc = 0 then some (0x07, openAddr) else cmd.check kind openAddr
  if fld h 18 46 ≠ 0 then some (0x07, openAddr)
  else match fld h 16 2 with
    | 0 => product .dense
    | 1 => product .sparse
    | 2 => if (slice body 32 32).any (· != 0) || ((fetchCmd body).check openAddr).isSome then some (0x07, openAddr) else none
    | _ => some (0x07, openAddr)

/-- MCMD (R251, R374): the ticket, and the command on its way to the target. -/
def execMcmd (k : BitVec 1) (d a b c : BitVec 5) (s : State) : Out :=
  let target := fld (s.x a).toNat 0 16
  let vb := s.x b
  s.settle (
    if !(isDense target && isCore target && (s.partFor s.cur.cn).holds target) then .trap 0x07 (BitVec.ofNat 64 target)
    else if vb.toNat % 8 ≠ 0 then .trap 0x04 vb
    else match s.readStrand vb 72 with
      | (.error e, _) => readStop e
      | (.ok bs, t) =>
        match mcmdCheck bs s.openAddr with
        | some (e, f) => .trap e f
        | none =>
          let n := t.myCore.freeSlot.getD 0
          match t.issueTicket d { s.plainTicket c.toNat (encode (.mcmd k d a b c)) (s.x a) with xb := vb, target := some target } with
          | .done u f =>
            let seq := (u.myCore.ticket n).seq
            .done (u.send [u.request (.owner target) (.mcmd target (leAt bs 0 2) (fld (leAt bs 0 8) 16 2) bs n seq) vb]) f
          | r => r)

/-- MCMD_ARRIVAL (R251, R375): the capability check at the target, then the array queue, which keeps the command. -/
def State.mcmdArrival (s : State) (i : Nat) : State :=
  if !s.canPerform i then s
  else match s.net[i]? with
    | none => s
    | some r =>
      match r.op with
      | .mcmd target cap _ cmd n seq =>
        let s1 := s.dropReq i
        let t := (s1.core r.src).ticket n
        let key := (s1.partFor target).key
        if !(t.live && t.st == .pending && t.seq == seq) then s1
        else if cap ≠ key || key = 0 then s1.faultTicket r.src n 0x16 (s1.openTicketAddr r.src n)
        else { s1.modCore r.src fun c => c.setTicket n { t with cmd := cmd, arrive := s1.nextRid } with
          nextRid := s1.nextRid + 1, mcmds := putKey s1.mcmds (mcmdKey r.src n seq) cmd }
      | _ => s

/-! ### ALOAD, ASTORE, AZERO (R252, R253, R320, R325) -/

/-- ALOAD and ASTORE up to the ticket (R320). -/
def State.accMove (s : State) (d a t c : BitVec 5) (load : Bool) (word : IWord) : Res :=
  let x := s.x a
  let bytes := (s.tile t.toNat).bytes
  s.matrix (
    if fld x.toNat 6 2 ≠ 0 || fld x.toNat 15 49 ≠ 0 then .trap 0x07 s.openAddr
    else if bytes % 512 ≠ 0 then .trap 0x0C (BitVec.ofNat 64 t.toNat)
    else if 128 < fld x.toNat 8 7 + bytes / 512 then .trap 0x07 s.openAddr
    else s.issueTicket d { s.plainTicket c.toNat word x with
      src := if load then some t.toNat else none
      dst := if load then none else some t.toNat
      drain := load })

/-- ALOAD (R252, R320). -/
def execAload (k : BitVec 1) (d a t c : BitVec 5) (s : State) : Out :=
  s.settle (s.accMove d a t c true (encode (.aload k d a t c)))

/-- ASTORE (R252, R320). -/
def execAstore (k : BitVec 1) (d a t c : BitVec 5) (s : State) : Out :=
  s.settle (s.accMove d a t c false (encode (.astore k d a t c)))

/-! ### Footprints of array operations (R243) -/

/-- What an array operation reads and writes: 16-byte units of the operand store by number, and accumulator block b as
2^32 + b; ranges of first and end. -/
structure Foot where
  reads : List (Nat × Nat)
  writes : List (Nat × Nat)
  deriving DecidableEq, Repr

/-- A range of accumulator blocks. -/
def accRange (b n : Nat) : Nat × Nat := (2 ^ 32 + b, 2 ^ 32 + b + n)
/-- A byte range of the operand store, in units. -/
def storeRange (off n : Nat) : Nat × Nat := (off / 16, (off + n + 15) / 16)
/-- The rows of an operand in the operand store. -/
def rowRanges (base stride rowBytes rows : Nat) : List (Nat × Nat) :=
  (List.range rows).map fun r => storeRange (base + r * stride) rowBytes

/-- Whether two lists of ranges meet. -/
def overlap (a b : List (Nat × Nat)) : Bool := a.any fun x => b.any fun y => x.1 < y.2 && y.1 < x.2

/-- Whether a later operation waits for an earlier one. -/
def Foot.waitsFor (later earlier : Foot) : Bool :=
  overlap earlier.writes (later.reads ++ later.writes) || overlap earlier.reads later.writes

/-- The footprint of a product. -/
def MatCmd.foot (c : MatCmd) (kind : MatKind) : Foot :=
  let a := rowRanges c.aaddr c.astr (fmtBytes c.afmt (c.aElems kind)) (128 * c.mb)
  let b := rowRanges c.baddr c.bstr (fmtBytes c.bfmt c.k) (128 * c.nb)
  let extra (rs : List (Nat × Nat)) : List (Nat × Nat) := rs.tail.map fun r => storeRange r.1 r.2
  let blocks := accRange c.accb (c.mb * c.nb)
  { reads := blocks :: ((if c.asrc = 1 then a ++ extra (c.aRanges kind) else []) ++
      (if c.bsrc = 1 then b ++ extra c.bRanges else []))
    writes := blocks :: (if kind = .rot then a ++ b else []) }

/-- The footprint of a fetch: its rows, and the blocks of its mask. -/
def FetchCmd.foot (c : FetchCmd) : Foot :=
  { reads := if c.flags = 1 then [accRange (c.maske / 16384) ((c.maske + c.nrows - 1) / 16384 - c.maske / 16384 + 1)] else []
    writes := [storeRange c.dst (c.nrows * c.rowb)] }

/-- The footprint of all of the array: that of a command which is to be read again. -/
def Foot.all : Foot := { reads := [(0, 2 ^ 33)], writes := [(0, 2 ^ 33)] }

/-- The footprint of an array ticket (R243). -/
def Ticket.foot (t : Ticket) : Foot :=
  let blk := accRange (fld t.xa.toNat 0 6) 1
  match instrOf t.word with
  | .aload .. => { reads := [], writes := [blk] }
  | .astore .. => { reads := [blk], writes := [] }
  | .mmul .. => if t.cmd.isEmpty then .all else (matCmd t.cmd).foot .dense
  | .mmuls .. => if t.cmd.isEmpty then .all else (matCmd t.cmd).foot .sparse
  | .mrot .. => if t.cmd.isEmpty then .all else (matCmd t.cmd).foot .rot
  | .mfetch .. => if t.cmd.isEmpty then .all else (fetchCmd t.cmd).foot
  | .mcmd .. =>
    if t.cmd.isEmpty then .all
    else match fld (leAt t.cmd 0 8) 16 2 with
      | 0 => (matCmd (t.cmd.drop 8)).foot .dense
      | 1 => (matCmd (t.cmd.drop 8)).foot .sparse
      | _ => (fetchCmd (t.cmd.drop 8)).foot
  | _ => { reads := [], writes := [] }

/-- Whether a ticket's word works at the array of its own core. -/
def Ticket.onArray (t : Ticket) : Bool :=
  match instrOf t.word with
  | .mmul .. | .mmuls .. | .mrot .. | .mfetch .. | .aload .. | .astore .. => true
  | _ => false

/-- Whether an MCMD's command is still on its way. -/
def State.mcmdUnderway (s : State) (cn n : Nat) : Bool :=
  s.net.any fun r => r.src == cn && match r.op with
    | .mcmd _ _ _ _ k seq => k == n && seq == ((s.core cn).ticket n).seq
    | _ => false

/-- The pending operations at the array of a dense tile: issuing core and ticket slot (R243). -/
def State.arrayQueue (s : State) (cn : Nat) : List (Nat × Nat) :=
  let here (c : Nat × Core) : List (Nat × Nat) := ((List.range 64).filter fun n =>
    let t := c.2.ticket n
    t.live && t.st == .pending && ((c.1 == cn && t.onArray) || (t.target == some cn && !s.mcmdUnderway c.1 n))).map fun n => (c.1, n)
  s.cores.flatMap here

/-- The arrival of an operation at its engine: order of arrival, then for restored tickets the issue sequence, then the core (R214,
R243). -/
abbrev Arrival := Nat × Nat × Nat

/-- Whether one arrival comes before another. -/
def arrivedBefore (a b : Arrival) : Bool :=
  a.1 < b.1 || (a.1 == b.1 && (a.2.1 < b.2.1 || (a.2.1 == b.2.1 && a.2.2 < b.2.2)))

/-- The arrival of a ticket: issuing core and ticket slot. -/
def State.arrivalOf (s : State) (q : Nat × Nat) : Arrival :=
  let t := (s.core q.1).ticket q.2
  (t.arrive, t.seq, q.1)

/-- Whether an operation with a footprint and an arrival waits for an earlier one at an array (R243): a pending ticket, or an AZERO or
ACVT that waits. -/
def State.arrayWaits (s : State) (cn : Nat) (arrival : Arrival) (f : Foot) : Bool :=
  ((s.arrayQueue cn).any fun q => arrivedBefore (s.arrivalOf q) arrival && f.waitsFor ((s.core q.1).ticket q.2).foot) ||
    (s.core cn).strands.toList.any fun t => t.holds.any fun h => match h.2 with
      | .array rid reads writes => rid < arrival.1 && f.waitsFor { reads := reads, writes := writes }
      | _ => false

/-- AZERO and ACVT at the array (R243): the first attempt is the arrival, the others keep its place; `ready` tells whether else
nothing is waited for. -/
def State.joinArray (s : State) (f : Foot) (ready : Bool) (k : Res) : Res :=
  match s.held with
  | some (.array rid _ _) => if s.arrayWaits s.cur.cn (rid, 0, 0) f || !ready then .wait else k
  | _ => if s.arrayWaits s.cur.cn (s.nextRid, 0, 0) f || !ready then .start (.array f.reads f.writes) else k

/-- AZERO (R253, R325). -/
def execAzero (a : BitVec 5) (s : State) : Out :=
  let x := (s.x a).toNat
  let b := fld x 0 6
  let n := fld x 8 7
  s.settle (s.matrix (
    if n = 0 || 64 < b + n || fld x 6 2 ≠ 0 || fld x 15 49 ≠ 0 then .trap 0x07 s.openAddr
    else s.joinArray { reads := [], writes := [accRange b n] } true <| .done { s with mem := s.mem.clear (accKey s.cur.cn (16384 * b)) (65536 * n) } 0))

/-! ### ACVT (R254, R313) -/

/-- The 4-byte words of a list of bytes. -/
def words32 : List Byte → List Nat
  | a :: b :: c :: d :: r => leNat [a, b, c, d] :: words32 r
  | _ => []

/-- Two nibbles a byte, low first (R101). -/
def packNibbles : List Nat → List Byte
  | a :: b :: r => BitVec.ofNat 8 (a % 16 + 16 * (b % 16)) :: packNibbles r
  | _ => []

/-- Round(x / SCALE, dt, RNE) of R313; accumulator NaNs are quiet. -/
def acvtElem (dt x scale : Nat) : Nat × Nat :=
  let pol := defaultPolicy dt
  match fDec 8 x, fDec 8 scale with
  | .nan _, _ => nanBits dt false
  | .inf n, _ => infinityBits dt pol n
  | .fin n m e, .fin _ w d => if m = 0 then (withSign dt n 0, 0) else fQuot dt 0 pol n m e w d
  | _, _ => (0, 0)

/-- ACVT (R254, R313, R314). -/
def execAcvt (a t v : BitVec 5) (s : State) : Out :=
  let cn := s.cur.cn
  let va := s.x a
  let dt := v.toNat
  s.settle (s.matrix (
    if va.toNat % 16 ≠ 0 then .trap 0x04 va
    else match s.readStrand va 16 with
      | (.error e, _) => readStop e
      | (.ok bs, u) =>
        let blk := leAt bs 0 1
        let row0 := leAt bs 1 1
        let rows := leAt bs 2 2
        let scale := leAt bs 4 4
        let soff := leAt bs 8 4
        let bad := 64 ≤ blk || rows = 0 || 128 < row0 + rows || bit scale 31 || fld scale 23 8 = 0 || fld scale 23 8 = 255 ||
          leAt bs 12 4 ≠ 0 || soff % 4 ≠ 0 || (dt ≠ 13 && soff ≠ 0) || (dt = 13 && 0x10000 < soff + 16 * rows)
        if !s.tileTest fun c => c.softFills t.toNat then tileError t.toNat
        else if bad then .trap 0x07 s.openAddr
        else if (s.tile t.toNat).bytes < fmtBytes (if dt = 10 then 9 else dt) (128 * rows) then tileError t.toNat
        else s.joinArray { reads := [accRange blk 1], writes := [] } u.ownQuiet <|
          let xs := words32 (u.mem.readRun (accKey cn (16384 * blk + 128 * row0)) (512 * rows))
          let es := xs.map fun x => acvtElem dt x scale
          let out := if dt = 13 then packNibbles (es.map (·.1))
            else es.flatMap fun e => leBytes (if dt ≤ 10 then 2 else 1) e.1
          let words := if dt = 13 then (List.range (4 * rows)).flatMap fun _ => leBytes 4 scale else []
          u.writeTiles [((s.tile t.toNat).base, out), (soff, words)] fun w => .done w (es.foldl (fun f e => f ||| e.2) 0)))

/-! ### The exponent histogram (R124 to R126, R391) -/

/-- The bin of a value, or none for zeros and NaNs (R125). -/
def histBin : FVal → Option Nat
  | .nan _ => none
  | .inf _ => some 63
  | .fin _ m e =>
    if m = 0 then none
    else
      let x : Int := e + log2N m
      some (if x < -32 then 0 else if 31 < x then 63 else (x + 32).toNat)

/-- Counts one value. -/
def countBin (h : Vector Nat 64) (b : Option Nat) : Vector Nat 64 :=
  match b with
  | none => h
  | some i => h.setIfInBounds i (min 0xFFFFFFFF ((h[i]?.getD 0) + 1))

/-- QHIST (R125, R391). -/
def execQhist (a : BitVec 4) (p : BitVec 5) (t : BitVec 4) (s : State) : Out :=
  let w := typeWidth t.toNat
  let v := s.v a
  let pm := s.p p.toNat
  let bins := (List.range (128 / w)).map fun i => if pm.getLsbD i then histBin (fDec t.toNat (lane v w i)) else none
  s.settle (s.matrix (.done (s.modMyCore fun c => { c with hist := bins.foldl countBin c.hist }) 0))

/-- QSCALE of a histogram (R126). -/
def scaleOf (hist : List Nat) (p dt : Nat) : Nat :=
  let n := hist.foldl (· + ·) 0
  if n = 0 then 0x3F800000
  else
    let goal := ceilDiv (n * (p + 1)) 256
    let b := (findBelow 64 fun i => goal ≤ (hist.take (i + 1)).foldl (· + ·) 0).getD 63
    let emax := if dt = 11 then 8 else if dt = 12 then 15 else 2
    (b + 95 - emax) * 2 ^ 23

/-- QSCALE (R126, R391): the histogram as it stood before the bundle. -/
def execQscale (d a t : BitVec 4) (s : State) : Out :=
  let p := fld (s.src.getX a.toNat).toNat 0 8
  s.settle (s.matrix (.done (s.setReg 4 (.x d.toNat) (BitVec.ofNat 128 (scaleOf s.srcCore.hist.toList p t.toNat))) 0))

/-! ### Product steps (R246, R247) -/

/-- The value of an operand element of bf16, e4m3 or e5m2: a subnormal is a zero (R107). -/
def arrayVal (fmt bits : Nat) : FVal :=
  match fDec fmt bits with
  | .fin n m e => .fin n (if isSub fmt bits then 0 else m) e
  | v => v

/-- Whether an SF4 scale word is valid (R101). -/
def scaleValid (w : Nat) : Bool :=
  match fDec 8 w with
  | .fin n m _ => !n && m != 0
  | _ => false

/-- The 32 elements of an SF4 block (R101). -/
def blockVals (block : List Byte) (scale : Nat) : List FVal :=
  block.flatMap fun b => [fld b.toNat 0 4, fld b.toNat 4 4].map fun q =>
    if scaleValid scale then (exMul (fDec 13 q) (fDec 8 scale)).1 else .nan false

/-- The elements of 1 or 2 bytes. -/
def bf16s : List Byte → List Nat
  | a :: b :: r => leNat [a, b] :: bf16s r
  | _ => []

/-- The blocks of an SF4 row with their scales. -/
def sf4Row : List Byte → List Nat → List FVal
  | _, [] => []
  | bs, w :: ws => blockVals (bs.take 16) w ++ sf4Row (bs.drop 16) ws

/-- The elements of a piece of a row, and the flag of invalid scale words. -/
def rowVals (fmt : Nat) (bs : List Byte) (scales : List Nat) : List FVal × Nat :=
  if fmt = 13 then (sf4Row bs scales, flagIf (scales.any fun w => !scaleValid w) fNV)
  else if fmt = 9 then ((bf16s bs).map (arrayVal 9), 0)
  else (bs.map fun b => arrayVal fmt b.toNat, 0)

/-- Groups of four. -/
def groups4 {α : Type} : List α → List (List α)
  | a :: b :: c :: d :: r => [a, b, c, d] :: groups4 r
  | _ => []

/-- A group of A: four positions, of which a pruned one is none; none for an illegal group of MMULS (R247). -/
abbrev AGroup := Option (List (Option FVal))

/-- The groups of a 2:4 row from its kept elements and its metadata nibbles. -/
def sparseGroups : List FVal → List Nat → List AGroup
  | x :: y :: r, q :: qs =>
    let i0 := q % 4
    let i1 := q / 4
    (if i0 < i1 then some ((List.range 4).map fun k => if k = i0 then some x else if k = i1 then some y else none) else none) ::
      sparseGroups r qs
  | _, _ => []

/-- The products of a group: a pruned position is +0 (R247), which raises nothing where it meets an infinity or a NaN (R110). -/
def groupProducts : List (Option FVal) → List FVal → List (FVal × Bool)
  | some x :: xs, y :: ys => exMul x y :: groupProducts xs ys
  | none :: xs, y :: ys =>
    ((exMul (.fin false 0 0) y).1, false) :: groupProducts xs ys
  | _, _ => []

/-- The exact sum of a group and NV (R122). -/
def groupSum (ps : List (FVal × Bool)) : FVal × Bool :=
  let vs := ps.map (·.1)
  let both := vs.contains (.inf false) && vs.contains (.inf true)
  let nv := both || ps.any (·.2)
  if both || vs.any FVal.isNan then (.nan false, nv)
  else match vs with
    | [] => (.fin false 0 0, nv)
    | v :: r => (r.foldl (fun acc x => (exAdd 0 acc x).1) v, nv)

/-- An accumulator's value: its NaNs are quiet (R313; log 42). -/
def accVal (acc : Nat) : FVal :=
  match fDec 8 acc with
  | .nan _ => .nan false
  | x => x

/-- Adds a group sum to an accumulator with one RNE rounding; a subnormal result becomes zero (R107, R122). -/
def accAdd (acc : Nat) (sum : FVal × Bool) : Nat × Nat :=
  let r := exAdd 0 (accVal acc) sum.1
  let q := fFin 8 0 false (r.1, r.2 || sum.2)
  if isSub 8 q.1 then (fld q.1 31 1 * 2 ^ 31, q.2 ||| fUF ||| fNX) else q

/-- The groups of one output element, in ascending k (R246, R247). -/
def accGroups : List AGroup → List (List FVal) → Nat → Nat → Nat × Nat
  | some a :: as, b :: bs, acc, f =>
    let r := accAdd acc (groupSum (groupProducts a b))
    accGroups as bs r.1 (f ||| r.2)
  | none :: as, _ :: bs, acc, f => accGroups as bs acc (f ||| fMETA)
  | _, _, acc, f => (acc, f)

/-- One row of accumulators. -/
def accRow (a : List AGroup) : List (List (List FVal)) → List Nat → List Nat → Nat → List Nat × Nat
  | b :: bs, x :: xs, out, f =>
    let r := accGroups a b x f
    accRow a bs xs (r.1 :: out) r.2
  | _, _, out, f => (out.reverse, f)

/-- All rows of a block: the new words in row order, with the flags. -/
def accBlock (bs : List (List (List FVal))) : List (List AGroup) → List Nat → Nat → List Nat × Nat
  | a :: as, xs, f =>
    let r := accRow a bs (xs.take 128) [] f
    let t := accBlock bs as (xs.drop 128) r.2
    (r.1 ++ t.1, t.2)
  | [], _, f => ([], f)

/-- n bytes of an operand in its space (R245): a tile, the operand store, or memory (R248). -/
def State.operand (s : State) (cn : Nat) (a : Access) (src tile off n : Nat) : Except Stop (List Byte) × State :=
  match src with
  | 0 =>
    if s.pendingTo cn (.scratch cn 0) then (.error .order, s)
    else (.ok (s.mem.readRun (scratchKey cn (((s.core cn).tile tile).base + off)) n), s)
  | 1 => (.ok (s.mem.readRun (operandKey cn off) n), s)
  | _ => s.readBytes a (BitVec.ofNat 64 off) n

/-- Where a row piece of an operand lies. -/
structure Piece where
  src : Nat
  tile : Nat
  fmt : Nat
  base : Nat
  stride : Nat
  scl : Nat
  k : Nat
  sparse : Bool
  mdata : Nat

/-- The A side and the B side of a command. -/
def MatCmd.aPiece (c : MatCmd) (kind : MatKind) : Piece :=
  { src := c.asrc, tile := c.atile, fmt := c.afmt, base := c.aaddr, stride := c.astr, scl := c.ascl, k := c.k
    sparse := kind == .sparse, mdata := c.mdata }
def MatCmd.bPiece (c : MatCmd) : Piece :=
  { src := c.bsrc, tile := c.btile, fmt := c.bfmt, base := c.baddr, stride := c.bstr, scl := c.bscl, k := c.k
    sparse := false, mdata := 0 }

/-- The groups of chunk kc of row r of an operand, with flags. -/
def State.rowPiece (s : State) (cn : Nat) (a : Access) (p : Piece) (r kc : Nat) : Except Stop (List AGroup × Nat) × State :=
  let len := min 128 (p.k - 128 * kc)
  let half := if p.sparse then 2 else 1
  match s.operand cn a p.src p.tile (p.base + r * p.stride + fmtBytes p.fmt (128 * kc / half)) (fmtBytes p.fmt (len / half)) with
  | (.error e, t) => (.error e, t)
  | (.ok bs, t) =>
    let aux : Except Stop (List Byte) × State :=
      if p.fmt = 13 then t.operand cn a p.src p.tile (p.scl + 4 * (r * (p.k / 32) + 4 * kc)) (len / 8)
      else if p.sparse then t.operand cn a p.src p.tile (p.mdata + r * (p.k / 8) + 16 * kc) (len / 8)
      else (.ok [], t)
    match aux with
    | (.error e, u) => (.error e, u)
    | (.ok x, u) =>
      let (vs, f) := rowVals p.fmt bs (if p.fmt = 13 then words32 x else [])
      let gs : List AGroup :=
        if p.sparse then sparseGroups vs (x.flatMap fun b => [fld b.toNat 0 4, fld b.toNat 4 4])
        else (groups4 vs).map fun g => some (g.map some)
      (.ok (gs, f), u)

/-- The row pieces of n rows from row r. -/
def State.rowPieces (s : State) (cn : Nat) (a : Access) (p : Piece) (kc : Nat) : (n r : Nat) →
    Except Stop (List (List AGroup) × Nat) × State
  | 0, _ => (.ok ([], 0), s)
  | n + 1, r =>
    match s.rowPiece cn a p r kc with
    | (.error e, t) => (.error e, t)
    | (.ok (g, f), t) =>
      match t.rowPieces cn a p kc n (r + 1) with
      | (.error e, u) => (.error e, u)
      | (.ok (gs, h), u) => (.ok (g :: gs, f ||| h), u)

/-- The product steps of a command. -/
def MatCmd.steps (c : MatCmd) : Nat := c.mb * c.nb * ceilDiv c.k 128

/-- One product step of ticket n of core cn at the array of `host` (R246, R247, R378). -/
def State.productStep (s : State) (cn n host : Nat) (c : MatCmd) (kind : MatKind) : ElemEnd :=
  let t := (s.core cn).ticket n
  let a := t.access host (s.partNo host)
  let nk := ceilDiv c.k 128
  let kc := t.elem % nk
  let nb := t.elem / nk % c.nb
  let mb := t.elem / (nk * c.nb)
  match s.rowPieces host a (c.aPiece kind) kc 128 (128 * mb) with
  | (.error e, u) => u.elemStop cn n e
  | (.ok (as, fa), u) =>
    match u.rowPieces host a c.bPiece kc 128 (128 * nb) with
    | (.error e, w) => w.elemStop cn n e
    | (.ok (bs, fb), w) =>
      let key := accKey host (16384 * (c.accb + mb * c.nb + nb))
      let old := if c.zero && kc = 0 then List.replicate 16384 0 else words32 (w.mem.readRun key 65536)
      let plain (g : AGroup) : List FVal := (g.getD []).map fun x => x.getD (.fin false 0 0)
      let (new, f) := accBlock (bs.map fun r => r.map plain) as old (fa ||| fb)
      if f &&& fMETA ≠ 0 && fctlMeta t.fctl then .fault w 0x18 (w.openTicketAddr cn n)
      else .ended { w with mem := w.mem.writeRun key (new.flatMap fun x => leBytes 4 x) } f
        (kind != .rot && c.steps ≤ t.elem + 1)

/-! ### MROT (R250) -/

/-- The MROTs of the members of ticket n's rectangle: those of its match, or, before there is one, each member's next that no match
has taken, where it has one. -/
def State.rotMatches (s : State) (cn n ctl : Nat) : List (Nat × Option Nat) :=
  (rotMembers cn ctl).map fun m => (m, match ((s.core cn).ticket n).rot with
    | some k => (s.core m).rotIn k
    | none => (s.core m).rotsOf.head?)

/-- Whether ticket n is matched, or is the next MROT of its core and every member has issued its own, with its command known again
after a restore (R214, R250). -/
def State.rotMatched (s : State) (cn n : Nat) (c : MatCmd) : Bool :=
  (((s.core cn).ticket n).rot.isSome || (s.core cn).rotsOf.head? == some n) && (s.rotMatches cn n c.ctl).all fun m => match m.2 with
    | some k => !((s.core m.1).ticket k).cmd.isEmpty
    | none => false

/-- The tickets of a match. -/
def State.rotTickets (s : State) (cn n : Nat) (c : MatCmd) : List (Nat × Nat) :=
  (s.rotMatches cn n c.ctl).map fun m => (m.1, m.2.getD 0)

/-- Makes the match of some tickets. -/
def State.markMatch (s : State) (ts : List (Nat × Nat)) : State :=
  { ts.foldl (fun u m => u.modCore m.1 fun c => c.setTicket m.2 { c.ticket m.2 with rot := some s.nextRid }) s with
    nextRid := s.nextRid + 1 }

/-- Whether the matched commands are the same but for ACCB. -/
def State.rotAgree (s : State) (cn n : Nat) (c : MatCmd) : Bool :=
  let mine := matCmd ((s.core cn).ticket n).cmd
  (s.rotTickets cn n c).all fun m => { matCmd ((s.core m.1).ticket m.2).cmd with accb := 0 } == { mine with accb := 0 }

/-- Every matched ticket faults with cause 0x07 (R250). -/
def State.rotFault (s : State) (ts : List (Nat × Nat)) : State :=
  let s1 := ts.foldl (fun u m => u.modCore m.1 fun c => c.setTicket m.2 { c.ticket m.2 with doomed := true }) s
  ts.foldl (fun u m => u.faultTicket m.1 m.2 0x07 (u.openTicketAddr m.1 m.2)) s1

/-- An element of MROT: a product step, or the fault of a doomed one in place of its shift. -/
def State.rotRun (s : State) (cn n : Nat) (c : MatCmd) : ElemEnd :=
  let t := (s.core cn).ticket n
  let later : ElemEnd := .sent (s.modCore cn fun x => x.setTicket n { x.ticket n with running := false })
  if c.steps ≤ t.elem then (if t.doomed then .fault s 0x07 (s.openTicketAddr cn n) else later)
  else if t.elem = 0 && !t.doomed && t.rot.isNone then
    if !s.rotMatched cn n c then later
    else if !s.rotAgree cn n c then .stopped (s.rotFault (s.rotTickets cn n c))
    else (s.markMatch (s.rotTickets cn n c)).productStep cn n cn c .rot
  else s.productStep cn n cn c .rot

/-- The rows of a range of the operand store, one after the other. -/
def State.rowsOf (s : State) (cn base stride rowBytes rows : Nat) : List (List Byte) :=
  (List.range rows).map fun r => s.mem.readRun (operandKey cn (base + r * stride)) rowBytes

/-- Writes the rows of a range of the operand store. -/
def State.setRows (s : State) (cn base stride : Nat) (rows : List (List Byte)) : State :=
  { s with mem := (List.range rows.length).foldl (fun m r => m.writeRun (operandKey cn (base + r * stride)) (rows.getD r [])) s.mem }

/-- Whether the shift of ticket n's match starts (R250): every member has ended its product steps and may start an element (R277,
R280). -/
def State.shiftReady (s : State) (cn n : Nat) : Bool :=
  let c := matCmd ((s.core cn).ticket n).cmd
  let ready (m : Nat × Nat) : Bool :=
    let t := (s.core m.1).ticket m.2
    !t.running && !t.parked && !t.cmd.isEmpty && (matCmd t.cmd).steps ≤ t.elem && s.ticketsRun m.1
  !((s.core cn).ticket n).cmd.isEmpty && s.rotMatched cn n c && (s.rotTickets cn n c).all ready

/-- MROT_SHIFT (R250): once every member has ended its product steps, each receives A from the east and B from the south, and
the tickets are done. -/
def State.mrotShift (s : State) (cn : Nat) : State :=
  match (s.core cn).rotating.find? (s.shiftReady cn) with
  | none => s
  | some n =>
      let c := matCmd ((s.core cn).ticket n).cmd
      let ts := s.rotTickets cn n c
      let w := fld c.ctl 20 2 + 1
      let h := fld c.ctl 22 2 + 1
      let arow := fmtBytes c.afmt c.k
      let brow := fmtBytes c.bfmt c.k
      let ms := rotMembers cn c.ctl
      let place (i : Nat) : Nat := ms.getD i cn
      let moves := (List.range ms.length).map fun i =>
        let east := place (i / w * w + (i % w + 1) % w)
        let south := place ((i / w + 1) % h * w + i % w)
        (place i, s.rowsOf east c.aaddr c.astr arow (128 * c.mb), s.rowsOf south c.baddr c.bstr brow (128 * c.nb))
      let s1 := moves.foldl (fun u m => (u.setRows m.1 c.aaddr c.astr m.2.1).setRows m.1 c.baddr c.bstr m.2.2) s
      ts.foldl (fun u m => u.elementEnd u m.1 m.2 0 true) s1

/-! ### MFETCH, ALOAD and ASTORE elements -/

/-- A row of MFETCH (R249, R377). -/
def State.fetchRow (s : State) (cn n host : Nat) (c : FetchCmd) : ElemEnd :=
  let t := (s.core cn).ticket n
  let r := t.elem
  let key := operandKey host (c.dst + r * c.rowb)
  let last := c.nrows ≤ r + 1
  let x := leNat (s.mem.readN (accKey host (c.maske + r)) 4)
  let masked := c.flags == 1 && ((fDec 8 x).isNan || (fDec 8 c.thr).isNan || (fDec 8 x).cmp (fDec 8 c.thr) ≤ 0)
  if masked then .ended { s with mem := s.mem.clear key c.rowb } 0 last
  else match s.readBytes (t.access host (s.partNo host)) (BitVec.ofNat 64 (c.src + r * c.rowb)) c.rowb with
    | (.error e, u) => u.elemStop cn n e
    | (.ok bs, u) => .ended { u with mem := u.mem.writeRun key bs } 0 last

/-- An element of ALOAD or ASTORE: eight rows (R252, R320, R321). -/
def State.accMoveRun (s : State) (cn n : Nat) (load : Bool) : ElemEnd :=
  let t := (s.core cn).ticket n
  let tile := (s.core cn).tile ((if load then t.stile else t.dtile).getD 0)
  let off := 4096 * t.elem
  let len := min 4096 (tile.bytes - off)
  let acc := accKey cn (16384 * fld t.xa.toNat 0 6 + 128 * (fld t.xa.toNat 8 7 + 8 * t.elem))
  let last := tile.bytes ≤ off + 4096
  if s.pendingTo cn (.scratch cn 0) then .sent s
  else if load then .ended { s with mem := s.mem.writeRun acc (s.mem.readRun (scratchKey cn (tile.base + off)) len) } 0 last
  else if s.locked t.sup cn (tile.base + off) len then .fault s 0x07 (BitVec.ofNat 64 (tile.base + off))
  else .ended (s.sendBytes cn n (tile.base + off) (s.mem.readRun acc len)) 0 last

/-- An element of an MCMD at its target, by the kind in its header (R251, R375). One whose target keeps no command of it, which only a
context that was loaded elsewhere has, faults (log 70). -/
def State.mcmdRun (s : State) (cn n : Nat) : ElemEnd :=
  let t := (s.core cn).ticket n
  let host := t.target.getD cn
  let go (u : State) (bs : List Byte) : ElemEnd :=
    match fld (leAt bs 0 8) 16 2 with
    | 0 => u.productStep cn n host (matCmd (bs.drop 8)) .dense
    | 1 => u.productStep cn n host (matCmd (bs.drop 8)) .sparse
    | _ => u.fetchRow cn n host (fetchCmd (bs.drop 8))
  if t.cmd.isEmpty then .fault s 0x07 (s.openTicketAddr cn n) else go s t.cmd

end Sys2Proof.Machine
end

