-- ==== Sys2Proof/Machine/Engines.lean ====
section
/-! DEFINITION. The engines (R49): which ticket gets the next grant (R177, R181, R214, R243), the elements of GATHER and GATHERP
(R123, R187 to R190, R356 to R358), of SCATTER and SCATADD (R191 to R193, R398), row requests and replies (R190, R239, R240), and
the end of an element (R213). -/
namespace Sys2Proof.Machine

/-! ### Grants (R49) -/

/-- The priorities of the 15 grant positions of a round. -/
def grantOrder : List Nat := [3, 2, 3, 1, 3, 2, 3, 0, 3, 2, 3, 1, 3, 2, 3]

/-- The engine of the issuing core that serves a ticket: 0 copy, 1 table, 2 collective, 3 array; 4 for MCMD, which the array
of its target serves. -/
def Ticket.engine (t : Ticket) : Nat :=
  match instrOf t.word with
  | .get .. | .put .. | .copy .. | .shuffle .. => 0
  | .gather .. | .gatherp .. | .scatter .. | .scatadd .. => 1
  | .coll .. => 2
  | .mcmd .. => 4
  | _ => 3

/-- The pending tickets presented to an engine of a core: issuing core and ticket slot. -/
def State.presented (s : State) (cn eng : Nat) : List (Nat × Nat) :=
  if eng = 3 then (if isDense cn then s.arrayQueue cn else [])
  else ((List.range 64).filter fun n =>
    let t := (s.core cn).ticket n
    t.live && t.st == .pending && t.engine == eng).map fun n => (cn, n)

/-! ### The locations of a ticket (R177) -/

/-- The bytes of a home as ranges of keys: first and end. -/
def State.homeSpan (s : State) (cn : Nat) (h : Home) (n : Nat) : List (Nat × Nat) :=
  match h with
  | .scratch c off => [(scratchKey c off, scratchKey c off + n)]
  | .line pa _ _ _ => [(pa, pa + n)]
  | .remote d c off => [(remoteKey d c off, remoteKey d c off + n)]
  | .mcast die dom off => (s.mcastMembers cn die dom).map fun m => (scratchKey m off, scratchKey m off + n)
  | .chip c off => [(chipKey c off, chipKey c off + n)]
  | _ => []

/-- The storage of n bytes from a virtual address: page by page, a cluster window by granules; what does not translate
has none. -/
def State.storeSpans (s : State) (a : Access) : (fuel : Nat) → (va n : Nat) → List (Nat × Nat)
  | 0, _, _ => []
  | k + 1, va, n =>
    if n = 0 then []
    else
      let r := ({ s with net := [] }.resolve { a with rd := false, wr := false } (BitVec.ofNat 64 va) 1).1
      let unit := match r with
        | .ok g => if g.region = 0xD && !g.isMcast then 256 else 65536
        | .error _ => 65536
      let m := min n (unit - va % unit)
      (match r with
        | .ok g => s.homeSpan a.cn g.home m
        | .error _ => []) ++ s.storeSpans a k (va + m) (n - m)

/-- The locations of n bytes from a virtual address: the addresses themselves and their storage. -/
def State.spans (s : State) (a : Access) (r : Nat × Nat) : List (Nat × Nat) :=
  (if 0x80000 ≤ r.1 then [(2 ^ 72 + r.1, 2 ^ 72 + r.1 + r.2)] else []) ++ s.storeSpans a (r.2 / 256 + 2) r.1 r.2

/-- The locations of a tile of a core. -/
def State.tileSpans (s : State) (cn : Nat) (t : Option Nat) : List (Nat × Nat) :=
  match t with
  | none => []
  | some k => let x := (s.core cn).tile k; [(scratchKey cn x.base, scratchKey cn x.base + x.bytes)]

/-- The virtual address of a row. -/
def Binding.rowVa (b : Binding) (id : Nat) : Word := b.base + BitVec.ofNat 64 (id * b.rowBytes)

/-- The rows that a table ticket names, as virtual addresses with their bytes. -/
def State.rowSpans (s : State) (cn n : Nat) : List (Nat × Nat) :=
  let t := (s.core cn).ticket n
  let b : Binding := { desc := t.cmd, addr := 0, sel := 0, ver := 0 }
  if b.hmode then []
  else ((distinctIds (idEntries (s.scratchBytes cn (s.tileVa cn t.stile).toNat (s.tileLen cn t.stile)))).filter (· < b.rows)).map
    fun id => ((b.rowVa id).toNat, b.rowBytes)

/-- The operands of a product that lie in memory (R248). -/
def MatCmd.memory (c : MatCmd) (kind : MatKind) : List (Nat × Nat) :=
  (if c.asrc = 2 then c.aRanges kind else []) ++ (if c.bsrc = 2 then c.bRanges else [])

/-- The virtual addresses that a ticket reads and writes outside its tiles. -/
def State.ticketMemory (s : State) (cn n : Nat) : List (Nat × Nat) × List (Nat × Nat) :=
  let t := (s.core cn).ticket n
  let bytes := leAt t.cmd 16 8
  match instrOf t.word with
  | .get .. => ([(t.xa.toNat, s.tileLen cn t.dtile)], [])
  | .put .. => ([], [(t.xa.toNat, s.tileLen cn t.stile)])
  | .copy .. =>
    (if t.stile.isSome then [] else [(leAt t.cmd 0 8, bytes)], if t.dtile.isSome then [] else [(leAt t.cmd 8 8, bytes)])
  | .gather .. | .gatherp .. => (s.rowSpans cn n, [])
  | .scatter .. | .scatadd .. => ([], s.rowSpans cn n)
  | .mmul .. => ((matCmd t.cmd).memory .dense, [])
  | .mmuls .. => ((matCmd t.cmd).memory .sparse, [])
  | .mfetch .. => let c := fetchCmd t.cmd; ([(c.src, c.nrows * c.rowb)], [])
  | .mcmd .. =>
    (match fld (leAt t.cmd 0 8) 16 2 with
      | 0 => (matCmd (t.cmd.drop 8)).memory .dense
      | 1 => (matCmd (t.cmd.drop 8)).memory .sparse
      | _ => let c := fetchCmd (t.cmd.drop 8); [(c.src, c.nrows * c.rowb)], [])
  | _ => ([], [])

/-- Whether a ticket's command has to be read again after a restore (R214). -/
def Ticket.lacksCommand (t : Ticket) : Bool :=
  t.cmd.isEmpty && match instrOf t.word with
    | .get .. | .put .. | .coll .. | .aload .. | .astore .. => false
    | _ => true

/-- The locations that a ticket reads and writes; every location for one whose command has to be read again. -/
def State.ticketFoot (s : State) (cn n : Nat) : Foot :=
  let t := (s.core cn).ticket n
  let a := t.access cn (s.partNo cn)
  if t.lacksCommand then { reads := [(0, 2 ^ 80)], writes := [(0, 2 ^ 80)] }
  else
    let m := s.ticketMemory cn n
    { reads := m.1.flatMap (s.spans a) ++ s.tileSpans cn t.stile ++ s.tileSpans cn t.stile2
      writes := m.2.flatMap (s.spans a) ++ s.tileSpans cn t.dtile }

/-- Whether earlier work of the strand and order group comes first: a pending ticket with a common location (R177), or an
atomic of the group that is not performed, or not replayed (R181, R275). -/
def State.groupWaits (s : State) (cn n : Nat) : Bool :=
  let t := (s.core cn).ticket n
  let before (k : Nat) : Bool :=
    let u := (s.core cn).ticket k
    k != n && !(!u.past && s.ordHolds cn u.issuer u.og u.order) && u.live && u.st == .pending && u.issuer == t.issuer && u.past == t.past && u.og == t.og && u.before t &&
      (s.ticketFoot cn n).waitsFor (s.ticketFoot cn k)
  (!t.past && s.ordHolds cn t.issuer t.og t.order) || (List.range 64).any before || s.underway.any fun r =>
    r.src == cn && r.slot == t.issuer && r.og == some t.og && ((r.rid < t.order && !s.replayHolds r) || r.op.isLoss)

/-- Whether the issuing strand's own requests hold a ticket's elements back: its word has not had its turn (R39, R61), or an LDA before
it is not performed (R171). -/
def State.ticketHeld (s : State) (cn n : Nat) : Bool :=
  let t := (s.core cn).ticket n
  (s.core cn).unsent t || (!t.past && s.net.any fun r => r.src == cn && r.slot == t.issuer && r.op.acquires && r.rid < t.order)

/-- Whether the first collective of an instance combines now (R338): every member has joined, its core may start elements (R277,
R280), and what its strand and its order group do first is done (R171, R177). -/
def State.collReady (s : State) (die dom : Nat) : Bool :=
  s.collStarts die dom && (s.collMembers die dom).all fun m => match m.2 with
    | some n => s.ticketsRun m.1 && !s.ticketHeld m.1 n && !s.groupWaits m.1 n
    | none => false

/-- COLLECTIVE_COMBINE (R229, R338, R339): once every member has joined and the combination may start, and its core's earlier writes
to its scratchpad have been performed (R167). -/
def State.collectiveCombine (s : State) (die dom : Nat) : State :=
  let ms := s.collMembers die dom
  let ended := ms.any fun m => match m.2 with
    | some n => ((s.core m.1).ticket n).ending.isSome
    | none => false
  if !s.collReady die dom || ended || ms.any fun m => s.pendingTo m.1 (.scratch m.1 0) then s
  else
    let ts := ms.map fun m => (m.1, m.2.getD 0)
    let tk (m : Nat × Nat) : Ticket := (s.core m.1).ticket m.2
    let src (m : Nat × Nat) : Tile := (s.core m.1).tile ((tk m).stile.getD 0)
    let same := ts.all fun m => (tk m).collOp == (tk (ts.headD (0, 0))).collOp && (src m).bytes == (src (ts.headD (0, 0))).bytes
    if !same then ts.foldl (fun u m => u.faultTicket m.1 m.2 0x07 (u.openTicketAddr m.1 m.2)) s
    else
      let (res, flags) := collResult (tk (ts.headD (0, 0))).collOp (ts.map fun m => s.tileBytes m.1 (src m))
      ts.foldl (fun u m => u.collEnd m.1 m.2 res flags) s

/-! ### Scheduled arrivals -/

/-- Whether scheduled request i, which is due, is held at its target: requests that its source sent before it to that home, or an LDA
of its strand, come first (R167, R168, R171, R175); so do what its home waits for at the line (R165), the order group of an ordered
atomic or of an armed PUT (R177, R181), and room at the port for a message (R234). -/
def State.arrivalHeld (s : State) (i : Nat) (r : Req) : Bool :=
  s.heldBack i r || (16 ≤ r.slot && s.groupWaits r.src (r.slot - 16)) || match r.op with
    | .send m => !r.home.far && s.portFull m.cn
    | _ => false

/-- SCHEDULED_ARRIVAL (R179, R226): performed at its target, or delivered to its inbox. -/
def State.scheduledArrival (s : State) (i : Nat) : State :=
  match s.net[i]? with
  | none => s
  | some r =>
    if !s.arrivalDue r || s.arrivalHeld i r then s
    else match r.op with
      | .send m => s.sendArrives i r m
      | _ => s.performAt i r

/-- Whether an MROT may have its next grant (R250): its first element when every member has issued its own, and its shift
only as a fault. -/
def State.rotReady (s : State) (cn n : Nat) : Bool :=
  let t := (s.core cn).ticket n
  if t.cmd.isEmpty then true
  else
    let c := matCmd t.cmd
    if c.steps ≤ t.elem then t.doomed else t.elem != 0 || t.doomed || t.rot.isSome || s.rotMatched cn n c

/-- Whether ticket n of core cn may be granted an element at an engine of `host` now. -/
def State.grantable (s : State) (host eng cn n : Nat) : Bool :=
  let t := (s.core cn).ticket n
  t.live && t.st == .pending && !t.parked && !t.running && s.ticketsRun cn && !s.ticketHeld cn n && !s.groupWaits cn n &&
    (match eng with
      | 2 => match t.collDomain with
          | some d => ((s.core cn).collsOn d).head? == some n
          | none => false
      | 3 => !s.arrayWaits host (t.arrive, t.seq, cn) t.foot && (!t.rots || s.rotReady cn n)
      | _ => true)

/-- Whether an engine is in the middle of an element: COLLs of several domains and armed PUTs stand beside each other. -/
def State.engineBusy (s : State) (cn eng : Nat) : Bool :=
  eng != 2 && (s.presented cn eng).any fun q =>
    let t := (s.core q.1).ticket q.2
    t.running && t.armedAt.isNone

/-- The first of a list of tickets to have reached its engine; restored ones come in issue sequence (R214). -/
def State.firstArrived (s : State) (qs : List (Nat × Nat)) : Option (Nat × Nat) :=
  qs.foldl (fun best q => match best with
    | none => some q
    | some b => if arrivedBefore (s.arrivalOf q) (s.arrivalOf b) then some q else some b) none

/-- The ticket that an engine grants next (R49). -/
def State.nextGrant (s : State) (cn eng : Nat) : Option (Nat × Nat) :=
  let qs := (s.presented cn eng).filter fun q => s.grantable cn eng q.1 q.2
  let of (p : Nat) : List (Nat × Nat) := qs.filter fun q => ((s.core q.1).ticket q.2).prio == p
  let turn := grantOrder.getD ((s.core cn).wrr[eng]?.getD 0) 3
  s.firstArrived (match [turn, 3, 2, 1, 0].find? fun p => !(of p).isEmpty with
    | some p => of p
    | none => [])

/-- ENGINE_GRANT (R49): the next position of the round goes to a ticket, whose element starts. -/
def State.engineGrant (s : State) (cn eng : Nat) : State :=
  if 4 ≤ eng || s.engineBusy cn eng then s
  else match s.nextGrant cn eng with
    | none => s
    | some q =>
      (s.modCore cn fun c => { c with wrr := c.wrr.setIfInBounds eng (((c.wrr[eng]?.getD 0) + 1) % 15) }).modCore q.1 fun c =>
        c.setTicket q.2 { c.ticket q.2 with running := true }

/-! ### Rows through the page table (R187, R188, R191) -/

/-- A row read at its row home as one access (R187); one on another device may meet its error (R278). -/
def State.readRow (s : State) (a : Access) (va : Word) (n : Nat) : Except Stop (List Byte) × State :=
  match targetsOf (fun u w => u.readTarget a w 16) (n / 16) va s with
  | (.error e, t) => (.error e, t)
  | (.ok gs, t) =>
    let read (acc : Except Stop (List Byte) × State) (g : Target) : Except Stop (List Byte) × State :=
      match acc with
      | (.error e, u) => (.error e, u)
      | (.ok bs, u) =>
        let (v, w) := u.readHome g.home 16 (effPolicy g.pol 0)
        if v.2 then (.error (.poison g.pa), w) else (.ok (bs ++ v.1), w)
    let home := match gs with
      | g :: _ => g.home
      | [] => .owner 0
    if (t.farRefuses home).1 then (.error (.fault 0x14 va), (t.farRefuses home).2)
    else gs.foldl read (.ok [], (t.farRefuses home).2.countAt a.cn home)

/-- The binding of a running table ticket, read again from its descriptor after a restore (R214). -/
def State.withBinding (s : State) (cn n : Nat) (k : State → Binding → ElemEnd) : ElemEnd :=
  let t := (s.core cn).ticket n
  let of (d : List Byte) : Binding :=
    { desc := d, addr := BitVec.ofNat 64 t.descVa, sel := t.sel, ver := fld t.tag.toNat 48 16 }
  if !t.cmd.isEmpty then k s (of t.cmd)
  else match s.readBytes (t.access cn (s.partNo cn)) (BitVec.ofNat 64 t.descVa) 64 with
    | (.error e, u) => u.elemStop cn n e
    | (.ok bs, u) => k (u.modCore cn fun c => c.setTicket n { c.ticket n with cmd := bindCopy bs }) (of (bindCopy bs))

/-! ### Row requests (R190, R239) -/

/-- Whether a row request of an element is on its way. -/
def State.rowAsked (s : State) (cn n : Nat) : Bool :=
  s.net.any fun r => r.src == cn && match r.op with
    | .rowReq _ _ _ _ tslot _ => tslot == n
    | _ => false

/-- DEV and TABLEID of a table on another device (R182). -/
def Binding.dev (b : Binding) : Nat := leAt b.desc 0x2A 2
def Binding.tableId (b : Binding) : Nat := leAt b.desc 0x28 2

/-- The rows of an element's identifiers on the owning device: asked for one after the other, then given to `k` as one run of
bytes (R190, R239). -/
def State.remoteRows (s : State) (cn n : Nat) (b : Binding) (ids : List Nat) (k : State → List Byte → ElemEnd) : ElemEnd :=
  let t := (s.core cn).ticket n
  let (cause, bytes) := t.answer.getD (0, [])
  if cause ≠ 0 then .fault s cause (s.openTicketAddr cn n)
  else match ids[bytes.length / b.rowBytes]? with
    | none => k s bytes
    | some id =>
      if s.rowAsked cn n then .sent s
      else if !(s.isLocal b.dev || s.reaches b.dev) then .fault s 0x07 (s.openTicketAddr cn n)
      else
        let r : Req := { rid := 0, src := cn, slot := 12, part := s.partNo cn, sup := t.sup, va := BitVec.ofNat 64 id, fpc := t.pc
                         home := .remote b.dev 0x10000 0, op := .rowReq b.dev b.tableId id b.ver n t.elem, og := none, depart := none
                         due := none }
        .sent ((s.touchFar cn n true).send [r])

/-- The rows of an element's identifiers, in order. -/
def State.elementRows (s : State) (cn n : Nat) (b : Binding) (ids : List Nat) (k : State → List Byte → ElemEnd) : ElemEnd :=
  if b.hmode then s.remoteRows cn n b ids k
  else
    let t := (s.core cn).ticket n
    let a := t.access cn (s.partNo cn)
    let read (acc : Except Stop (List Byte) × State) (id : Nat) : Except Stop (List Byte) × State :=
      match acc with
      | (.error e, u) => (.error e, u)
      | (.ok bs, u) => match u.readRow a (b.rowVa id) b.rowBytes with
        | (.error e, w) => (.error e, w)
        | (.ok r, w) => (.ok (bs ++ r), w)
    match ids.foldl read (.ok [], s) with
    | (.error e, u) => u.elemStop cn n e
    | (.ok bs, u) => k u bs

/-! ### GATHER -/

/-- An entry of a tile of a core. -/
def State.tileEntry (s : State) (cn : Nat) (t : Option Nat) (i w : Nat) : Nat :=
  leNat (s.scratchBytes cn (((s.core cn).tile (t.getD 0)).base + i * w) w)

/-- Writes into the destination tile of ticket n, unless a locked handler table refuses it (R233). -/
def State.fillTile (s : State) (cn n off : Nat) (bs : List Byte) (flags : Nat) (last : Bool) : ElemEnd :=
  let t := (s.core cn).ticket n
  let at_ := ((s.core cn).tile (t.dtile.getD 0)).base + off
  if s.locked t.sup cn at_ bs.length then .fault s 0x07 (BitVec.ofNat 64 at_)
  else .ended (s.sendBytes cn n at_ bs) flags last

/-- An element of GATHER (R356). -/
def State.gatherRun (s : State) (cn n : Nat) (b : Binding) : ElemEnd :=
  let t := (s.core cn).ticket n
  let id := s.tileEntry cn t.stile t.elem 8
  let last := s.lastEntry cn n
  if s.pendingTo cn (.scratch cn 0) then .sent s
  else if id = idNone then .ended s 0 last
  else if b.rows ≤ id then .fault s 0x07 (BitVec.ofNat 64 id)
  else if s.tileLen cn t.dtile < (t.elem + 1) * b.rowBytes then .fault s 0x0C 0
  else s.elementRows cn n b [id] fun u bs => u.fillTile cn n (t.elem * b.rowBytes) bs 0 last

/-- An element of GATHER.pf (R357): the lines of the row come into their home slices, once
their homes do not hold them (R180); every fault is dropped. -/
def State.prefetchRun (s : State) (cn n : Nat) (b : Binding) : ElemEnd :=
  let t := (s.core cn).ticket n
  let id := s.tileEntry cn t.stile t.elem 8
  let last := s.lastEntry cn n
  if s.pendingTo cn (.scratch cn 0) then .sent s
  else if id = idNone || b.rows ≤ id || b.hmode then .ended s 0 last
  else
    let a := { t.access cn (s.partNo cn) with wr := false }
    let resolve (u : State) (va : Word) : Except Stop Target × State :=
      match u.resolve a va 16 with
      | (.error c, w) => (.error (.fault c va), w)
      | (.ok g, w) => (.ok g, w)
    let bring (u : State) (g : Target) : State :=
      match g.home with
      | .line pa h pol _ => if pol < 2 then (u.countAt cn g.home).fill h pa pol else u
      | _ => u
    match targetsOf resolve (b.rowBytes / 16) (b.rowVa id) s with
    | (.error (.fault c _), u) => if c = heldCause then .sent u else .ended u 0 last
    | (.error _, u) => .ended u 0 last
    | (.ok gs, u) => if gs.any fun g => u.homeHeld g.home then .sent u else .ended (gs.foldl bring u) 0 last

/-! ### GATHERP (R123, R189, R358) -/

/-- The entries of a bag-offset tile before the first 0xFFFFFFFF. -/
def bagOffsets (bs : List Byte) : List Nat := (elems 4 bs).takeWhile (· ≠ 0xFFFFFFFF)

/-- The bytes of an element of a float table format. -/
def fmtWidth (fmt : Nat) : Nat := typeWidth fmt / 8

/-- The pooled value of one row element: each row's value with its count, in ascending identifier order (R123). -/
def poolElem (fmt : Nat) (mean : Bool) (total : Nat) (xs : List (Nat × Nat)) : Nat × Nat :=
  let sum := xs.foldl (fun (acc : Nat × Nat) x =>
    let r := fFma 8 0 false (fDec fmt x.1) (FVal.ofInt x.2) (fDec 8 acc.1)
    (r.1, acc.2 ||| r.2)) (0, 0)
  if !mean || total = 0 then sum
  else
    let q := fDiv 8 0 (fDec 8 sum.1) (FVal.ofInt total)
    (q.1, sum.2 ||| q.2)

/-- The pooled row of a bag, with its flags. -/
def poolRow (fmt : Nat) (mean half : Bool) (counts : List Nat) (rows : List (List Byte)) : List Byte × Nat :=
  let w := fmtWidth fmt
  let total := counts.foldl (· + ·) 0
  let es := rows.map (elems w)
  let n := ((rows.headD []).length) / w
  let one (i : Nat) : List Byte × Nat :=
    let r := poolElem fmt mean total ((es.map fun e => e.getD i 0).zip counts)
    if half then
      let h := fPut 9 0 false .ieee (fDec 8 r.1)
      (leBytes 2 h.1, r.2 ||| h.2)
    else (leBytes 4 r.1, r.2)
  let rs := (List.range n).map one
  (rs.flatMap (·.1), rs.foldl (fun f r => f ||| r.2) 0)

/-- The rows of a run of bytes. -/
def splitRows (n : Nat) : (count : Nat) → List Byte → List (List Byte)
  | 0, _ => []
  | k + 1, bs => bs.take n :: splitRows n k (bs.drop n)

/-- Whether a GATHERP ticket takes the mean. -/
def Ticket.mean (t : Ticket) : Bool :=
  match instrOf t.word with
  | .gatherp _ _ _ m .. => m == 1
  | _ => false

/-- An element of GATHERP: one bag (R189, R358). -/
def State.poolRun (s : State) (cn n : Nat) (b : Binding) : ElemEnd :=
  let t := (s.core cn).ticket n
  let open_ := s.openTicketAddr cn n
  if s.pendingTo cn (.scratch cn 0) then .sent s
  else
    let offs := bagOffsets (s.tileBytes cn ((s.core cn).tile (t.stile2.getD 0)))
    let bags := offs.length - 1
    if bags ≤ t.elem then .ended s 0 true
    else if b.fmt < 8 || 12 < b.fmt then .fault s 0x07 open_
    else
      let ids := idEntries (s.tileBytes cn ((s.core cn).tile (t.stile.getD 0)))
      let lo := offs.getD t.elem 0
      let hi := offs.getD (t.elem + 1) 0
      let count := b.rowBytes / fmtWidth b.fmt
      let w := if b.pool16 then 2 else 4
      let bag := (ids.drop lo).take (hi - lo)
      let ds := distinctIds bag
      let counts := ds.map fun x => bag.count x
      if hi < lo || ids.length < hi then .fault s 0x07 0
      else if ds.any (b.rows ≤ ·) then .fault s 0x07 open_
      else if s.tileLen cn t.dtile < (t.elem + 1) * count * w then .fault s 0x0C open_
      else s.elementRows cn n b ds fun u bs =>
        let rows := if ds.isEmpty then [] else splitRows b.rowBytes ds.length bs
        let r := if ds.isEmpty then (List.replicate (count * w) 0, 0) else poolRow b.fmt t.mean b.pool16 counts rows
        u.fillTile cn n (t.elem * count * w) r.1 r.2 (bags ≤ t.elem + 1)

/-! ### SCATTER and SCATADD (R191, R193, R398) -/

/-- The operation, LR and EPS of a routine of a partition (R192). -/
def Part.routine (p : Part) (k : Nat) : Nat × Nat × Nat :=
  (leAt p.routines (16 * k) 1, leAt p.routines (16 * k + 4) 4, leAt p.routines (16 * k + 8) 4)

/-- Whether the row update of an element is on its way. -/
def State.rowSent (s : State) (cn n : Nat) : Bool :=
  s.net.any fun r => match r.op with
    | .row u => u.cn == cn && u.tslot == n
    | _ => false

/-- The target of one unit of a row to be updated: a line of region 0x0 or 0x1 (R191). -/
def State.rowTarget (s : State) (a : Access) (w : Word) : Except Stop Target × State :=
  match s.resolve { a with rd := false } w 16 with
  | (.error c, v) => (.error (.fault c w), v)
  | (.ok g, v) => match g.home with
    | .line .. => if g.region < 2 then (.ok g, v) else (.error (.fault 0x07 w), v)
    | _ => (.error (.fault 0x07 w), v)

/-- An element of SCATTER (`plain`) or SCATADD. -/
def State.scatterRun (s : State) (cn n : Nat) (b : Binding) (plain : Bool) : ElemEnd :=
  let t := (s.core cn).ticket n
  let part := s.partNo cn
  let (op, lr, eps) := if plain then (7, 0, 0) else (s.part part).routine b.routine
  let size := contribBytes op b.rowBytes
  let id := s.tileEntry cn t.stile t.elem 8
  let last := s.lastEntry cn n
  if s.rowSent cn n || s.pendingTo cn (.scratch cn 0) then .sent s
  else if !opAccepts op b.fmt b.rowBytes then .fault s 0x07 (s.openTicketAddr cn n)
  else if id = idNone then .ended s 0 last
  else if b.rows ≤ id then .fault s 0x07 (BitVec.ofNat 64 id)
  else if s.tileLen cn t.stile2 < (t.elem + 1) * size then .fault s 0x0C 0
  else
    let va := b.rowVa id
    let a := t.access cn part
    match targetsOf (fun u w => u.rowTarget a w) (b.rowBytes / 16) va s with
    | (.error e, u) => u.elemStop cn n e
    | (.ok gs, u) =>
      let data := u.scratchBytes cn (((u.core cn).tile (t.stile2.getD 0)).base + t.elem * size) size
      let upd : RowUpd := { units := gs.map fun g => (g.pa, g.hf, g.pol), op := op, fmt := b.fmt, lr := lr, eps := eps
                            ukey := wordAt b.desc 0x20, id := id, tag := if b.mode = 0 then none else some t.tag.toNat
                            desc := u.tableKey cn part b.addr.toNat, mode := b.mode, data := data, cn := cn, tslot := n
                            seq := t.seq, elem := t.elem, fctl := t.fctl, part := part }
      let home : Home := match gs with
        | g :: _ => g.home
        | [] => .owner cn
      .sent (u.send [{ rid := 0, src := cn, slot := 12, part := part, sup := t.sup, va := va, fpc := t.pc, home := home
                       op := .row upd, og := none, depart := none, due := none }])

/-! ### The end of an element -/

/-- What the running element of a ticket does, by its word. -/
def State.elementRun (s : State) (cn n : Nat) : ElemEnd :=
  match instrOf ((s.core cn).ticket n).word with
  | .copy .. => s.copyRun cn n
  | .put .. => s.putRun cn n
  | .get .. => s.getRun cn n
  | .shuffle .. => s.shuffleRun cn n
  | .gather _ _ _ f .. => s.withBinding cn n fun u b => if f = 1 then u.prefetchRun cn n b else u.gatherRun cn n b
  | .gatherp .. => s.withBinding cn n fun u b => u.poolRun cn n b
  | .scatter .. => s.withBinding cn n fun u b => u.scatterRun cn n b true
  | .scatadd .. => s.withBinding cn n fun u b => u.scatterRun cn n b false
  | .mmul .. => s.withCommand cn n 64 fun u bs => u.productStep cn n cn (matCmd bs) .dense
  | .mmuls .. => s.withCommand cn n 64 fun u bs => u.productStep cn n cn (matCmd bs) .sparse
  | .mrot .. => s.withCommand cn n 64 fun u bs => u.rotRun cn n (matCmd bs)
  | .mfetch .. => s.withCommand cn n 32 fun u bs => u.fetchRow cn n cn (fetchCmd bs)
  | .aload .. => s.accMoveRun cn n true
  | .astore .. => s.accMoveRun cn n false
  | .mcmd .. => s.mcmdRun cn n
  | _ => .sent s

/-- Whether n bytes from a virtual address touch another device, page by page (R178). -/
def State.farSpan (s : State) (a : Access) : (fuel : Nat) → (va n : Nat) → Bool
  | 0, _, _ => false
  | k + 1, va, n =>
    n != 0 &&
      ((match ({ s with net := [] }.resolve { a with wr := false } (BitVec.ofNat 64 va) 1).1 with
        | .ok g => g.far
        | .error _ => false) || s.farSpan a k (va + min n (65536 - va % 65536)) (n - min n (65536 - va % 65536)))

/-- Whether the memory operands of an array ticket, or the rows of a table ticket, lie on another device (R178). -/
def State.reachesFar (s : State) (cn n : Nat) : Bool :=
  let t := (s.core cn).ticket n
  let a := t.access cn (s.partNo cn)
  2 ≠ t.engine && 0 ≠ t.engine && !t.fabric &&
    ((s.ticketMemory cn n).1 ++ (s.ticketMemory cn n).2).any fun r => s.farSpan a (r.2 / 65536 + 2) r.1 r.2

/-- TICKET_ELEMENT_END (R213): the running element of ticket n takes place; when it has sent units, it ends once they are performed,
or with the refusal of one of them when what was written before it has been performed (R178). -/
def State.ticketElementEnd (s0 : State) (cn n : Nat) : State :=
  let t := (s0.core cn).ticket n
  if !(t.live && t.st == .pending && t.running) then s0
  else match t.ending with
    | some (flags, last) =>
      match if t.armedAt.isSome then none else t.answer with
      | some (c, bs) =>
        let s := { s0 with net := s0.net.filter fun r => r.src != cn || r.slot != ticketSlot n || !r.ofElement }
        if s.unitsOut cn n then s else s.faultTicket cn n c (wordAt bs 0)
      | none => if s0.unitsOut cn n then s0 else s0.closeElement cn n flags last
    | none =>
      let s := if s0.reachesFar cn n then s0.touchFar cn n true else s0
      s.finishElement cn n (s.elementRun cn n)

/-! ### Serving row requests (R240) -/

/-- n bytes for a row request through the owning partition's page table with supervisor rights: bytes or a cause,
0 while earlier accesses come first. Poison, of the data or of the page walk, stops the owning partition (R285). -/
def State.ownerRead (s : State) (p sel : Nat) (va : Word) (n : Nat) : Except Nat (List Byte) × State :=
  let lead := (s.part p).lead
  match s.readBytes { s.supAccess lead p with sel := sel } va n with
  | (.ok bs, t) => (.ok bs, t)
  | (.error (.fault c _), t) =>
    if c = heldCause then (.error 0, t)
    else if c % 2 ^ 8 = 0x13 then (.error 0x14, t.fatalAlone p c lead 0)
    else (.error 0x07, t)
  | (.error .order, t) => (.error 0, t)
  | (.error (.poison pa), t) => (.error 0x14, t.fatalAlone p 0x13 lead pa)

/-- The half of a partition's followed weight set that holds a version (R240). -/
def State.halfOf (s : State) (p ver : Nat) : Option Nat × State :=
  if !(s.part p).vsel.follow then (none, s)
  else match s.weightSet p with
    | (.error _, t) => (none, t)
    | (.ok bs, t) =>
      let act := wsActive bs
      ([act, 1 - act].find? fun h => wsVer bs h == ver, t)

/-- The row that an owning device answers with, or the cause (R240, R278). -/
def State.serveRow (s0 : State) (table id ver : Nat) : Except Nat (List Byte) × State :=
  let s := s0
  let entry := s.peekN (s.dev.ftbase.toNat % 2 ^ 56 + 16 * table) 8
  let p := fld entry 8 8
  let va := s.peekN (s.dev.ftbase.toNat % 2 ^ 56 + 16 * table + 8) 8
  if s.dev.ftcount ≤ table || !bit entry 0 || (s.part? p).isNone then (.error 0x07, s)
  else if (s.part p).status = .fatal then (.error 0x14, s)
  else match s.ownerRead p (s.part p).vsel.sel (BitVec.ofNat 64 va) 64 with
    | (.error c, t) => (.error c, t)
    | (.ok bs, t) =>
      let b : Binding := { desc := bindCopy bs, addr := BitVec.ofNat 64 va, sel := 0, ver := 0 }
      if !descValid bs true || b.hmode || b.rows ≤ id || va % 64 ≠ 0 then (.error 0x07, t)
      else if !b.vers then t.ownerRead p 0 (b.rowVa id) b.rowBytes
      else if t.homeHeld (t.followHome p).1 then (.error 0, t)
      else match t.halfOf p ver with
        | (none, u) => (.error 0x0F, u)
        | (some h, u) => u.ownerRead p h (b.rowVa id) b.rowBytes

/-- A row reply for the running element of a ticket: a row, or the cause (R239). -/
def State.takeRow (s : State) (cn n elem cause : Nat) (row : List Byte) : State :=
  match s.net.findIdx? fun r => r.src == cn && match r.op with
    | .rowReq _ _ _ _ tslot e => tslot == n && e == elem
    | _ => false with
  | none => s
  | some i =>
    let t := (s.core cn).ticket n
    let s1 := s.dropReq i
    if !(t.live && t.st == .pending && t.running && t.elem == elem) then s1
    else
      let size := 16 * ((t.cmd.getD 0x10 0).toNat + 1)
      let old := (t.answer.getD (0, [])).2
      let new : Nat × List Byte := if cause ≠ 0 then (cause, []) else (0, old ++ (row ++ List.replicate size 0).take size)
      s1.modCore cn fun c => c.setTicket n { c.ticket n with answer := some new }

/-- Causes that a row reply can carry (R239, R240, R278). -/
def rowCause (cause : Nat) : Bool := cause == 0 || cause == 0x07 || cause == 0x0F || cause == 0x14

/-- ROW_REPLY (R239): the reply of another device. -/
def State.rowReply (s : State) (cn n elem cause : Nat) (row : List Byte) : State :=
  if rowCause cause then s.takeRow cn n elem cause row else s

/-- ROW_REQUEST (R240): this device serves a request, and answers one of its own at once. A device without a number accepts no
request of another (R429). -/
def State.rowRequest (s : State) (dev cn n elem table id ver : Nat) : State :=
  if dev < 0xFFFF && s.dev.number.isNone then s
  else match s.serveRow table id ver with
  | (.error 0, _) => s
  | (.error c, t) => if s.isLocal dev then t.takeRow cn n elem c [] else t
  | (.ok row, t) => if s.isLocal dev then t.takeRow cn n elem 0 row else t

end Sys2Proof.Machine
end

