-- ==== Sys2Proof/Machine/Frames.lean ====
section
/-! DEFINITION. Frames and rows: COMMIT and DECOMMIT (R155, R156, R340, R341), ALLOC and FREE (R158, R159, R319, R354), and SHIP
(R180, R401, R402). -/
namespace Sys2Proof.Machine

/-! ### Frames (R155, R156) -/

/-- The walk to the leaf that covers an address, with no regard to rights or to STATE 1 (R340); a poisoned entry is the fatal cause
(R285), and one whose line its home holds is waited for (R165). -/
def leafFrom (s : State) (va : Nat) : (fuel level base : Nat) → Except Nat Walk
  | 0, _, _ => .error 0x07
  | fuel + 1, level, base =>
    let addr := base + 8 * fld va (levelShift level) 10
    let e := s.peekN addr 8
    if s.lineHeld addr s.nextRid then .error heldCause
    else if s.peekPoison addr then .error (poisonCause addr)
    else
      let found : Except Nat Walk := .ok { pte := e, level := level, addr := addr, read := [] }
      match checkEntry level e with
      | .bad c => if c = 0x06 then found else .error c
      | .leaf => found
      | .table b => leafFrom s va fuel (level + 1) b

/-- The physical address of a frame word or leaf entry: REGION and PA[51:16] (R155). -/
def frameBase (e : Nat) : Nat := pteRegion e * 2 ^ 52 + pteFrame e * 2 ^ 16

/-- The offset in the frame-pool descriptor of the stack for frames of a level (R155). -/
def stackOffset (level : Nat) : Nat := (3 - level) * 0x10

/-- The physical address of a byte of HBM storage as regions 0x0 and 0x1 name it (R136, R137, R161). -/
def State.addrOfKey (s : State) (region key : Nat) : Nat :=
  if region = 1 then
    let page := match s.dpit.find? fun e => e.2 == key / 2 ^ 16 with
      | some e => e.1
      | none => key / 2 ^ 16
    2 ^ 52 + page * 2 ^ 16 + key % 2 ^ 16
  else
    let la := key % 2 ^ 30
    let high := la / 2 ^ 8 * 2 ^ 18
    high + (fld (key / 2 ^ 30) 0 10 ^^^ fld high 18 10 ^^^ fld high 28 10) * 2 ^ 8 + la % 2 ^ 8

/-- Whether a storage byte belongs to n bytes from a physical address. -/
def State.keyIn (s : State) (pa n key : Nat) : Bool :=
  if fld pa 52 4 = 2 then (s.storeKey pa ≤ key && key < s.storeKey pa + n)
  else key < 2 ^ 40 && (let a := s.addrOfKey (fld pa 52 4) key
    pa ≤ a && a < pa + n)

/-- Zeroes a frame (R156): its storage, with its L2 lines, near copies, ownership and poison gone. -/
def State.zeroFrame (s : State) (pa n : Nat) : State :=
  let outside (w : Nat) : Bool := w * 8 + 8 ≤ pa || pa + n ≤ w * 8
  { s.dropLines pa n with
    mem := s.mem.filter fun c => !s.keyIn pa n c.1
    poison := s.poison.filter fun k => !s.keyIn pa n (k * 128)
    owner := s.owner.filter fun w => outside w.1
    cores := s.cores.map fun c => (c.1, { c.2 with near := c.2.near.filter fun w => outside w.1 }) }

/-- Drops the cached lines and near copies of a frame (R156, R340). -/
def State.dropFrame (s : State) (pa n : Nat) : State :=
  let outside (w : Nat) : Bool := w * 8 + 8 ≤ pa || pa + n ≤ w * 8
  { s.dropLines pa n with
    owner := s.owner.filter fun w => outside w.1
    cores := s.cores.map fun c => (c.1, { c.2 with near := c.2.near.filter fun w => outside w.1 }) }

/-- Whether a move of a page of a frame is under way (R156). -/
def State.frameMoving (s : State) (pa n : Nat) : Bool :=
  fld pa 52 4 == 1 && s.moves.any fun m => fld pa 0 52 ≤ m.page * 2 ^ 16 && m.page * 2 ^ 16 < fld pa 0 52 + n

/-- Whether a request to a frame, in flight or of a bundle's later turn, is still to be performed (R39, R154, R341). -/
def State.frameInUse (s : State) (pa n : Nat) : Bool :=
  s.underway.any fun r => r.lines.any fun a => pa ≤ a && a < pa + n

/-- Whether an access of a partition to scratchpad or another device through the page of an address, at a level, is still to be
performed (R154, R341). -/
def State.pageInUse (s : State) (p level va : Nat) : Bool :=
  let page (a : Word) : Bool := a.toNat / 2 ^ pageBits level == va / 2 ^ pageBits level
  s.underway.any fun r => r.part == p && match r.op with
    | .move _ to_ => page r.va || page to_
    | op => (op.isLoad || op.isWrite) && page r.va

/-- The common part of COMMIT and DECOMMIT (R340): the checks of the operand and the leaf, which is read after the writes of the
bundle's earlier words (R61). -/
def State.withLeaf (s : State) (a : BitVec 5) (k : State → Walk → Res) : Res :=
  let va := s.x a
  if !s.me.sup then .trap 0x03 va
  else if va.toNat < 0x80000 || 2 ^ 56 ≤ va.toNat then .trap 0x07 va
  else
    let early := s.net.any fun r => s.cur.since ≤ r.rid && r.src == s.cur.cn && r.slot == s.cur.slot && r.op.isWrite
    match leafFrom s va.toNat 4 0 (s.partFor s.cur.cn).root with
    | .error c => if early then .wait else .trap c va
    | .ok w => if s.frameMoving (frameBase w.pte) (2 ^ pageBits w.level) then .wait else k s w

/-- Writes a page-table entry at its home for the executing strand (R156): a core that owned it loses it (R169). -/
def State.writePte (s : State) (addr e : Nat) : State :=
  let cn := s.cur.cn
  let p := s.partNo cn
  (s.hostWrite addr (leBytes 8 e)).takeWords p cn s.cur.slot none ((s.homeOf (s.part p) addr 0).getD cn) addr 8

/-- COMMIT (R156, R340): REGION of the entry follows the frame word's, and FRAME stands as R148 places it (log 83). The release of
R174 comes first. -/
def execCommit (a : BitVec 5) (s : State) : Out :=
  let va := s.x a
  s.settle (s.withLeaf a fun f w =>
    if pteState w.pte ≠ 1 then .done f 0
    else if s.releaseWaits s.cur.cn s.cur.slot 4 then .wait
    else
      let pool := (f.partFor f.cur.cn).fpool
      let at_ := pool + BitVec.ofNat 64 (stackOffset w.level)
      match f.readBytes (f.access true false) at_ 16 with
      | (.error e, _) => readStop e
      | (.ok bs, t) =>
        let count := leAt bs 8 4
        if count = 0 then .trap 0x15 va
        else match t.readBytes (t.access true false) (wordAt bs 0 + BitVec.ofNat 64 (8 * (count - 1))) 8 with
          | (.error e, _) => readStop e
          | (.ok fw, u) =>
            match u.writeBytes (u.access false true) s.cur.slot (at_ + 8) (leBytes 4 (count - 1)) with
            | .error e => readStop e
            | .ok v =>
              let frame := leNat fw
              let pte := w.pte % 2 ^ 8 / 8 * 8 + 2 * 2 + 1 + pteFrame frame * 2 ^ 8 + fld w.pte 44 16 * 2 ^ 44 +
                pteRegion frame * 2 ^ 60
              .done ((v.zeroFrame (frameBase frame) (2 ^ pageBits w.level)).writePte w.addr pte) 0)

/-- DECOMMIT (R156, R340, R341): it waits for the accesses to the frame that are under way (R154). -/
def execDecommit (a : BitVec 5) (s : State) : Out :=
  let va := s.x a
  s.settle (s.withLeaf a fun f w =>
    match pteState w.pte with
    | 1 => .done f 0
    | 3 => .trap 0x07 va
    | _ =>
      let pool := (f.partFor f.cur.cn).fpool
      let at_ := pool + BitVec.ofNat 64 (stackOffset w.level)
      let pa := frameBase w.pte
      let n := 2 ^ pageBits w.level
      match f.readBytes (f.access true false) at_ 16 with
      | (.error e, _) => readStop e
      | (.ok bs, t) =>
        let count := leAt bs 8 4
        if leAt bs 12 4 ≤ count then .trap 0x15 va
        else if t.frameInUse pa n || t.pageInUse (t.partNo t.cur.cn) w.level va.toNat then .wait
        else
          let word := pteFrame w.pte * 2 ^ 8 + pteRegion w.pte * 2 ^ 60
          match t.writeBytes (t.access false true) s.cur.slot (wordAt bs 0 + BitVec.ofNat 64 (8 * count)) (leBytes 8 word) with
          | .error e => readStop e
          | .ok u =>
            match u.writeBytes (u.access false true) s.cur.slot (at_ + 8) (leBytes 4 (count + 1)) with
            | .error e => readStop e
            | .ok v =>
              let pte := w.pte % 2 ^ 8 / 8 * 8 + 1 * 2 + 1 + fld w.pte 44 20 * 2 ^ 44
              .done ((((v.writePte w.addr pte).invalidate s.cur.cn 4 true (some va.toNat)).dropFrame pa n)) 0)

/-! ### The row allocator (R158, R159) -/

/-- The address of the descriptor of a free list, or none above LISTS (R158). -/
def State.listAt (s : State) (n : Word) : Option Word :=
  let al := s.srcPart.alist.toNat
  if fld al 56 8 < n.toNat then none else some (BitVec.ofNat 64 (fld al 5 51 * 32 + 32 * n.toNat))

/-- Writes several pieces, all or nothing. -/
def State.writeAll (s : State) (a : Access) (slot : Nat) : List (Word × List Byte) → Except Stop State
  | [] => .ok s
  | (va, bs) :: r =>
    match s.writeBytes a slot va bs with
    | .error e => .error e
    | .ok t => t.writeAll a slot r

/-- The bitmap byte of block i and its bit (R158). -/
def bitmapByte (bs : List Byte) (i : Nat) : Word × Nat := (wordAt bs 8 + BitVec.ofNat 64 (i / 8), i % 8)

/-- ALLOC (R159, R319). -/
def execAlloc (d a : BitVec 5) (s : State) : Out :=
  let n := s.x a
  s.settle (match s.listAt n with
    | none => .trap 0x07 n
    | some at_ =>
      match s.readStrand at_ 32 with
      | (.error e, _) => readStop e
      | (.ok bs, t) =>
        let i := leAt bs 24 4
        if i = 0xFFFFFFFF then .trap 0x15 n
        else
          let block := wordAt bs 0 + BitVec.ofNat 64 (i * leAt bs 16 4)
          let (byteAt, b) := bitmapByte bs i
          match t.readBytes (t.access true false) block 4 with
          | (.error e, _) => readStop e
          | (.ok link, u) =>
            match u.readBytes (u.access true false) byteAt 1 with
            | (.error e, _) => readStop e
            | (.ok m, v) =>
              match v.writeAll (v.access false true) s.cur.slot [(byteAt, leBytes 1 (setFld (leNat m) b 1 1)),
                  (at_ + 24, link ++ leBytes 4 (leAt bs 28 4 + 0xFFFFFFFF))] with
              | .error e => readStop e
              | .ok w => .done ((w.setX 1 d block).acquire s.cur.cn 4) 0)

/-- FREE (R159, R354). -/
def execFree (a b : BitVec 5) (s : State) : Out :=
  let n := s.x a
  let block := s.x b
  s.settle (match s.listAt n with
    | none => .trap 0x07 n
    | some at_ =>
      if s.releaseWaits s.cur.cn s.cur.slot 4 then .wait
      else match s.readStrand at_ 32 with
        | (.error e, _) => readStop e
        | (.ok bs, t) =>
          let base := leAt bs 0 8
          let size := leAt bs 16 4
          let i := (block.toNat - base) / size
          if block.toNat < base || size = 0 || (block.toNat - base) % size ≠ 0 || leAt bs 20 4 ≤ i then .trap 0x07 block
          else
            let (byteAt, k) := bitmapByte bs i
            match t.readBytes (t.access true false) byteAt 1 with
            | (.error e, _) => readStop e
            | (.ok m, u) =>
              if !bit (leNat m) k then .trap 0x15 n
              else match u.writeAll (u.access false true) s.cur.slot [(block, slice bs 24 4), (byteAt, leBytes 1 (setFld (leNat m) k 1 0)),
                  (at_ + 24, leBytes 4 i ++ leBytes 4 (leAt bs 28 4 + 1))] with
                | .error e => readStop e
                | .ok w => .done w 0)

/-! ### SHIP -/

/-- The bytes of a SHIP operation (R401). -/
def shipBytes (op : Nat) : Nat := if op = 1 then 4 else 8

/-- SHIP (R401): a region other than 0x0 and 0x1 is refused right after the walk. -/
def execShip (a b : BitVec 5) (o : BitVec 4) (s : State) : Out :=
  let va := s.x a
  let n := shipBytes o.toNat
  s.settle (
    if va.toNat % n ≠ 0 then .trap 0x04 va
    else if (s.paOf (s.access false true) va).any fun pa => 1 < fld pa 52 4 then .trap 0x07 va
    else match s.resolve (s.access false true) va n with
      | (.error c, _) => .trap c (if c = 0x03 then 0 else va)
      | (.ok g, t) =>
        if g.region ≠ 0 && g.region ≠ 1 then .trap 0x07 va
        else .done (t.sendTo g.home (.ship o.toNat (fld (s.x b).toNat 0 (8 * n)) false) va none none) 0)

/-- The result of a SHIP operation (R401): no flag, FTZ or mode applies. -/
def shipResult (op m v : Nat) : Nat :=
  match op with
  | 0 => (m + v) % 2 ^ 64
  | 1 => (fAdd 8 0 false m v).1
  | 2 => min m v
  | 3 => max m v
  | 4 => m ||| v
  | _ => m &&& v

/-- SHIP_APPLY (R180, R401): the update engine of the line's stack applies a SHIP to the storage. -/
def State.shipApply (s : State) (i : Nat) : State :=
  match s.net[i]? with
  | none => s
  | some r =>
    match r.op, r.home with
    | .ship op v true, .line pa home _ _ =>
      let s1 := s.dropReq i
      let n := shipBytes op
      if s1.poison.contains (s1.poisonKey pa) then s1.poisonStop r
      else
        let m := leNat ((List.range n).map fun j => s1.mem.read (s1.storeKey (pa + j)))
        (s1.writeStorage pa (leBytes n (shipResult op m v))).takeWords r.part r.src r.slot none home pa n
    | _, _ => s

end Sys2Proof.Machine
end

