-- ==== Sys2Proof/Machine/Device.lean ====
section
/-! DEFINITION. What the host, Rosby, the fabric and the memories do without a strand: routine and domain loads (R192, R221),
power and firmware (R287, R295 to R297), device number and far extents (R164, R429), page migration (R162, R163), memory errors
and their reports (R284, R285, R292), and faults at fetch (R79, R329). An event that is not due leaves the state as it is. -/
namespace Sys2Proof.Machine

/-- Whether the last cycle of a period of 1,000,000 cycles is running (R162, R292, R297). -/
def State.periodEnd (s : State) : Bool := (s.cycle + 1) % 1000000 == 0

/-! ### Routine and domain loads (R192, R221) -/

/-- The request that waits for a load, performed. -/
def State.endWrite (s : State) (who : Option (Nat × Nat)) : State :=
  match who with
  | none => s
  | some (cn, rid) => { s with net := s.net.filter fun r => !(r.src == cn && r.rid == rid) }

/-- The core that a load's record names: the writer, or the lead core for a host write (R292). -/
def Part.writer (x : Part) (who : Option (Nat × Nat)) : Nat :=
  match who with
  | .none => x.lead
  | .some w => w.1

/-- A read that met poison stops its partition (R285). -/
def State.poisonRead (s : State) (p cn c : Nat) : State := if c % 2 ^ 8 = 0x13 then s.fatalAlone p c cn 0 else s

/-- ROUTINE_LOAD_DONE (R192): the write is performed, so that ROUTBASE reads the address without its bits [7:0], and the routines are
the table's, or unloaded with a record of the address as written. -/
def State.routineLoadDone (s : State) (p : Nat) : State :=
  let x := s.part p
  match x.routload with
  | [] => s
  | (who, a) :: later =>
    let base := a.toNat / 2 ^ 8 * 2 ^ 8
    let s1 := (s.modPart p fun y => { y with routload := later, routbase := BitVec.ofNat 64 base }).endWrite who
    match s1.supRead x.lead p base 17 256 with
    | (.error 0xFF, _) => s
    | (.ok bs, t) => t.modPart p fun y => { y with routines := bs }
    | (.error c, t) =>
      ((t.modPart p fun y => { y with routines := [] }).report p [errRecord 13 (c % 2 ^ 8) (x.writer who) 0 0 a.toNat 0]).poisonRead p
        (x.writer who) c

/-- A barrier domain from its descriptor (R220). -/
def domainOf (p : Nat) (bs : List Byte) : Domain :=
  let b := leAt bs 0x46 1
  { part := p, clusters := BitVec.ofNat 512 (leAt bs 0 64), cores := BitVec.ofNat 32 (leAt bs 0x40 4)
    dense := BitVec.ofNat 16 (leAt bs 0x44 2), sched := bit b 0, paired := bit b 1, pair := fld (leAt bs 0x47 1) 0 6
    nslot := leAt bs 0x48 2, nphase := leAt bs 0x4A 1, count := 0, arrived := [], votes := [] }

/-- Whether the fields of a descriptor keep R220. -/
def domainFields (bs : List Byte) : Bool :=
  let d := domainOf 0 bs
  fld (leAt bs 0x46 1) 2 6 == 0 && fld (leAt bs 0x47 1) 6 2 == 0 && (slice bs 0x4B 53).all (· == 0) &&
    (if d.sched then 1 ≤ d.nslot && d.nslot ≤ 1024 && 1 ≤ d.nphase && d.nphase ≤ 16 else d.nslot == 0 && d.nphase == 0)

/-- Whether a new domain agrees with the loaded domains of the other die (R221). -/
def State.pairOk (s : State) (die dom : Nat) (d : Domain) : Bool :=
  (!d.paired || (match s.dom? (1 - die) d.pair with
    | some e => e.paired && e.pair == dom
    | none => true)) &&
  (List.range 64).all fun k => match s.dom? (1 - die) k with
    | some e => !(e.paired && e.pair == dom) || (d.paired && d.pair == k)
    | none => true

/-- The reason to refuse a domain load, 0 for none; the lowest that applies (R221, R292). -/
def State.domainReason (s : State) (p die dom : Nat) (bytes : Option (List Byte)) : Nat :=
  let x := s.part p
  let waits := match s.dom? die dom with
    | some d => !d.arrived.isEmpty
    | none => false
  if !(x.doms[die]?.getD 0).getLsbD dom then 1
  else match bytes with
    | none => if waits then 6 else 7
    | some bs =>
      let d := domainOf p bs
      if !(d.members die).all x.holds then 2
      else if (d.members die).isEmpty then 3
      else if !domainFields bs then 4
      else if !s.pairOk die dom d then 5
      else if waits then 6
      else 0

/-- DOMAIN_LOAD_DONE (R221). -/
def State.domainLoadDone (s : State) (p : Nat) : State :=
  let x := s.part p
  match x.domload with
  | [] => s
  | (who, v) :: later =>
    let die := v / 64
    let dom := v % 64
    let cn := x.writer who
    let at_ := (s.core cn).regs.bdtab.toNat + 128 * dom
    let s1 := (s.modPart p fun y => { y with domload := later }).endWrite who
    let (r, t) := s1.supRead cn p at_ 9 128
    let (bytes, cause) : Option (List Byte) × Nat := match r with
      | .ok bs => (some bs, 0)
      | .error c => (none, c)
    if cause = heldCause then s
    else match t.domainReason p die dom bytes with
    | 0 => { t with doms := putKey t.doms (die * 64 + dom) (domainOf p (bytes.getD [])) }
    | n => (t.report p [errRecord 4 (if n = 7 then cause % 2 ^ 8 else 0) cn 0 0 at_ (v + n * 2 ^ 8)]).poisonRead p cn cause

/-- An act of the host through PCI Express, which is absent when firmware did not verify (R295). -/
def State.byHost (s : State) (f : State → State) : State := if s.dev.linked then f s else s

/-- An act of the host that is a write of one register, through a function that reaches it (R241, R286). -/
def State.byFunction (s : State) (page off : Nat) (f : State → State) : State :=
  s.byHost fun t => if t.hostReaches page off then f t else t

/-- A write of a register of a partition's page by a core of the partition, or else by the host (R241, R286). -/
def State.byMember (s : State) (p cn off : Nat) (f : State → Option (Nat × Nat) → State) : State :=
  if (s.part p).holds cn then f s (some (cn, s.nextRid)) else s.byFunction (0x100 + p) off fun t => f t none

/-- ROUTBASE (R192): a write by a core of the partition or by the host; loads in progress come first. -/
def State.writeRoutbase (s : State) (p cn v : Nat) : State :=
  s.byMember p cn 0x008 fun t who => t.startRoutines p who v

/-- DOMLOAD (R221), in the same way. -/
def State.writeDomload (s : State) (p cn v : Nat) : State :=
  s.byMember p cn 0x010 fun t who => t.startDomain p who v

/-! ### Power and firmware (R287, R295 to R297) -/

/-- THROTTLE_UPDATE (R297): f is Rosby's choice, at most 48. -/
def State.throttleUpdate (s : State) : State :=
  if s.periodEnd then { s with dev := { s.dev with throt := Config.throttle s.cycle % 49 } } else s

/-- The device without power: only the firmware images of the module stay (R295, R297). -/
def State.dark (s : State) : State :=
  { State.reset with
    powered := false
    choices := s.choices
    dev := { DeviceRegs.reset with images := s.dev.images, staged := s.dev.staged, linked := false } }

/-- POWER_LOSS (R297). -/
def State.powerLoss (s : State) : State := s.dark

/-- POWER_ON (R295, R296, R6): a staged image takes effect; images that fail verification do not run and stay the module's, and the PCI
Express functions are absent then. -/
def State.powerOn (s : State) : State :=
  if s.powered then s
  else
    let images := match s.dev.staged with
      | some i => [i]
      | none => s.dev.images
    let good := images.filter Config.lmsValid
    { State.reset with
      choices := s.choices
      dev := { DeviceRegs.reset with
        images := images
        running := good
        linked := good.length == images.length
        measured := good.map Config.sha256 } }

/-- FIRMWARE_UPDATE (R296): a verified image is staged. -/
def State.firmwareUpdate (s : State) (image : List Byte) : State :=
  if s.dev.linked && Config.lmsValid image then { s with dev := { s.dev with staged := some image } } else s

/-- SPDM_MEASUREMENTS (R295, R296): the measurements of the running images. -/
def State.spdmMeasurements (s : State) : State :=
  { s with dev := { s.dev with measured := s.dev.running.map Config.sha256 } }

/-! ### Fabric (R164, R238, R429) -/

/-- DEVICE_NUMBER (R429): never 0xFFFF. -/
def State.deviceNumber (s : State) (n : Nat) : State :=
  if n = 0xFFFF then s else { s with dev := { s.dev with number := some n } }

/-- The grant of an extent number. -/
def State.extent? (s : State) (e : Nat) : Option Extent := s.dev.extents.find? fun x => x.num == e

/-- EXTENT_GRANT (R164): to a partition that exists, from a device that the fabric reaches; not while another grant of the
number stands. -/
def State.extentGrant (s : State) (e p dev : Nat) : State :=
  let held := match s.extent? e with
    | some x => !x.revoked
    | none => false
  if held || (s.part? p).isNone || !s.reaches dev || 2 ^ 22 ≤ e then s
  else { s with dev := { s.dev with
    extents := { num := e, part := p, dev := dev, releasing := false, revoked := false } :: s.dev.extents.filter (·.num != e) } }

/-- Changes the grant of an extent. -/
def State.modExtent (s : State) (e : Nat) (f : Extent → Extent) : State :=
  { s with dev := { s.dev with extents := s.dev.extents.map fun x => if x.num = e then f x else x } }

/-- EXTENT_RELEASE (R164). -/
def State.extentRelease (s : State) (e : Nat) : State :=
  s.modExtent e fun x => if x.revoked then x else { x with releasing := true }

/-- The region 0x2 address of an extent's first byte. -/
def extentBase (e : Nat) : Nat := 2 * 2 ^ 52 + e * 2 ^ 30

/-- The cached lines of an extent. -/
def State.extentLines (s : State) (e : Nat) : List Nat :=
  (s.l2.map (·.1)).filter fun k => extentBase e ≤ linePa k && linePa k < extentBase e + 2 ^ 30

/-- EXTENT_RELEASE_ACK (R164): after the accesses in flight, every dirty line is written back. -/
def State.extentReleaseAck (s : State) (e : Nat) : State :=
  match s.extent? e with
  | none => s
  | some x =>
    if !x.releasing || x.revoked || s.frameInUse (extentBase e) (2 ^ 30) then s
    else ((s.extentLines e).foldl (fun t k => (t.writeBack k).dropLine k) s).modExtent e fun y =>
      { y with releasing := false, revoked := true }

/-- FORCED_REVOCATION (R164): the lines are lost, counted and reported. Accesses that translated before are still performed (DESIGN
CHOICE, log 92). -/
def State.forcedRevocation (s : State) (e : Nat) : State :=
  match s.extent? e with
  | none => s
  | some x =>
    if x.revoked then s
    else
      let ls := s.extentLines e
      let s1 := (ls.foldl (fun t k => t.dropLine k) s).modExtent e fun y => { y with releasing := false, revoked := true }
      (s1.modPart x.part fun y => { y with lost := y.lost + ls.length }).report x.part
        [errRecord 6 0x0E 0 0 0 (extentBase e) ls.length]

/-! ### Page migration (R162, R163) -/

/-- The storage page of a region 0x1 page. -/
def State.storagePage (s : State) (page : Nat) : Nat := (getKey s.dpit page).getD page

/-- The requests of a stack group to a page in the period. -/
def State.groupCount (s : State) (page group : Nat) : Nat :=
  ((s.hot.filter fun h => h.page == page && h.group == group).map (·.count)).foldl (· + ·) 0

/-- A candidate of the tracker: the page, the group that asks most, and the excess over the page's own group; none when no
group asks enough. -/
def State.hotCandidate (s : State) (page : Nat) : Option (Nat × Nat × Nat) :=
  let own := s.groupCount page (stackOfPc (s.storagePage page / 2 ^ 14))
  let best := (List.range 16).foldl (fun (b : Nat × Nat) g =>
    let n := s.groupCount page g
    if g ≠ stackOfPc (s.storagePage page / 2 ^ 14) && b.2 < n then (g, n) else b) (0, 0)
  if 256 ≤ best.2 && 2 * own ≤ best.2 then some (page, best.1, best.2 - own) else none

/-- The cluster of a group that asked most for a page; none when only dense tiles asked. -/
def State.hotCluster (s : State) (page group : Nat) : Option Nat :=
  ((s.hot.filter fun h => h.page == page && h.group == group && h.unit < 1024).foldl (fun (b : Option HotCount) h =>
    match b with
    | none => some h
    | some x => if x.count < h.count then some h else b) none).map (·.unit)

/-- A free frame of a stack's migration reserve: on the pseudo-channel of the cluster, or, where no cluster asked, any. With no frame on
that pseudo-channel the page does not move (DESIGN CHOICE, log 99). -/
def State.reserveFrame (s : State) (group : Nat) (cluster : Option Nat) : Option Nat :=
  s.reserve.find? fun f => stackOfPc (f / 2 ^ 14) == group && match cluster with
    | some c => clusterOfPc (f / 2 ^ 14) == c
    | none => true

/-- Starts the move of a candidate, if a frame is free and the page is not moving. -/
def State.startMove (s : State) (c : Nat × Nat × Nat) : State :=
  if s.moves.any fun m => m.page == c.1 then s
  else match s.reserveFrame c.2.1 (s.hotCluster c.1 c.2.1) with
    | none => s
    | some f => { s with moves := s.moves ++ [{ page := c.1, dest := f }], reserve := s.reserve.filter (· ≠ f) }

/-- HOT_PAGE_PERIOD (R162): each stack's tracker picks up to 64 pages, the largest excess first, and counting begins again. -/
def State.hotPagePeriod (s : State) : State :=
  if !s.periodEnd then s
  else
    let pages := sortNats (s.hot.map (·.page))
    let cands := pages.filterMap s.hotCandidate
    let pick (g : Nat) : List (Nat × Nat × Nat) :=
      (sortBy (cands.filter fun c => stackOfPc (s.storagePage c.1 / 2 ^ 14) == g) fun a b => b.2.2 ≤ a.2.2).take 64
    { ((List.range 16).flatMap pick).foldl (fun t c => t.startMove c) s with hot := [] }

/-- Whether an address lies in a region 0x1 page. -/
def inPage (page pa : Nat) : Bool := fld pa 52 4 == 1 && fld pa 16 24 == page

/-- Whether the old home has a write or a SHIP of the page half performed, which ends before the switch (R163, R169, R180). -/
def State.pageHeld (s : State) (page : Nat) : Bool :=
  s.net.any fun q => match q.op, q.home with
    | .loss w _ _ _, _ => inPage page (w * 8)
    | .ship _ _ true, .line pa _ _ _ => inPage page pa
    | _, _ => false

/-- The home of a page's line as the indirection table now gives it (R138, R161); only home 0 follows the page. -/
def State.newHome (s : State) (page : Nat) (h : Home) : Home :=
  match h with
  | .line pa cn pol 0 => .line pa (if inPage page pa then (s.homeOf Part.none pa 0).getD cn else cn) pol 0
  | _ => h

/-- A request as the old home forwards it (R163). -/
def State.forward (s : State) (page : Nat) (r : Req) : Req :=
  { r with
    home := s.newHome page r.home
    op := match r.op with
      | .move us a => .move (us.map fun u => (s.newHome page u.1, s.newHome page u.2)) a
      | op => op }

/-- The requests to a page, under way or still to be sent, go to its new home, in their order; near copies keep their values (R163). -/
def State.forwardAll (s : State) (page old : Nat) : State :=
  let strand (t : Strand) : Strand := { t with rest := t.rest.map fun u => { u with reqs := u.reqs.map (s.forward page) } }
  let near (w : Nat × NearWord) : Nat × NearWord :=
    let pa := w.1 * 8
    if inPage page pa && w.2.home == coreInCluster (clusterOfPc (old / 2 ^ 14)) (h5 pa)
    then (w.1, { w.2 with home := (s.homeOf Part.none pa 0).getD w.2.home }) else w
  { s with
    net := s.net.map (s.forward page)
    cores := s.cores.map fun c => (c.1, { c.2 with strands := c.2.strands.map strand, near := c.2.near.map near }) }

/-- PAGE_MOVE_SWITCH (R163): the page's lines are written back and dropped, its bytes with their poison stand in the new
frame, the DPIT entry is written, the requests that the old home holds go on to the new one, and the old frame joins the reserve. -/
def State.pageMoveSwitch (s : State) (i : Nat) : State :=
  match s.moves[i]? with
  | none => s
  | some m =>
    if s.pageHeld m.page then s
    else
      let keys := (s.l2.map (·.1)).filter fun k => inPage m.page (linePa k)
      let s1 := keys.foldl (fun t k => (t.writeBack k).dropLine k) s
      let old := s1.storagePage m.page
      let here := s1.poison.filter fun k => k / 2 ^ 9 == old
      let rest := s1.poison.filter fun k => k / 2 ^ 9 != old && k / 2 ^ 9 != m.dest
      State.forwardAll { s1 with
        mem := s1.mem.writeRun (m.dest * 2 ^ 16) (s1.mem.readRun (old * 2 ^ 16) (2 ^ 16))
        poison := sortNats (rest ++ here.map fun k => m.dest * 2 ^ 9 + k % 2 ^ 9)
        dpit := if m.dest = m.page then delKey s1.dpit m.page else putKey s1.dpit m.page m.dest
        reserve := insertNat old s1.reserve
        moves := s1.moves.eraseIdx i } m.page old

/-! ### The outside world -/

/-- The source number of a core of another device, for the order of its requests here (R167, R238). -/
def farSource (dev cn : Nat) : Nat := 2 ^ 32 + dev * 2 ^ 16 + cn

/-- A request of another device's core. -/
def farReq (dev cn : Nat) (sup : Bool) (home : Home) (op : ReqOp) (va : Word) : Req :=
  { rid := 0, src := farSource dev cn, slot := 12, part := 64, sup := sup, va := va, fpc := 0, home := home, op := op, og := none
    depart := none, due := none }

/-- The bytes that a scratchpad access touches: loads, stores and atomics, which Guipure carries (R238). -/
def ReqOp.farBytes : ReqOp → Option Nat
  | .load n _ _ _ | .amo n _ _ | .cas n _ _ => some n
  | .store bs _ _ => some bs.length
  | _ => none

/-- Whether this device takes traffic of another: both are numbered (R238, R429). -/
def State.hears (s : State) (dev : Nat) : Bool :=
  match s.dev.number with
  | none => false
  | some own => dev < 0xFFFF && dev != own

/-- The scratchpad byte of this device that an address of region 0xC, or of a cluster window, names on the fabric (R129, R130). -/
def State.farScratch (s : State) (pa : Nat) : Option Home :=
  if s.dev.number ≠ some (fld pa 36 16) then none
  else if fld pa 52 4 = 0xC then some (.scratch (fld pa 20 16) (fld pa 0 16))
  else if fld pa 52 4 = 0xD && fld pa 31 5 = 0 then some (.scratch (coreInCluster (fld pa 21 10) (fld pa 8 5)) (fld pa 13 8 * 256 + fld pa 0 8))
  else none

/-- What the outside world does; what it may not do has no effect. -/
def State.outside (s : State) (a : Outside) : State :=
  match a with
  | .function f => s.byHost fun t => { t with dev := { t.dev with function := f } }
  | .ways p c => s.byHost fun t => t.setWays p c
  | .home p k v => s.byHost fun t => t.setHome p k v
  | .message m =>
    if s.hears m.srcDev && isCore m.srcCn && isCore m.cn && fld m.target.toNat 36 12 = 0 && m.payload.length ≤ 4 then
      s.send [farReq m.srcDev m.srcCn false (.scratch m.cn 0) (.send m) m.target]
    else s
  | .remote dev cn pa sup op =>
    match s.farScratch pa, op.farBytes with
    | some (.scratch k off), some n =>
      if s.hears dev && isCore cn && isCore k && n ≤ 16 && off % 16 + n ≤ 16 then
        s.send [farReq dev cn sup (.scratch k off) op (BitVec.ofNat 64 pa)]
      else s
    | _, _ => s

/-! ### Memory errors (R284, R285, R292) -/

/-- CORRECTED_ERROR (R284): counted per die. -/
def State.correctedError (s : State) (die : Nat) : State :=
  { s with dev := { s.dev with corrected := s.dev.corrected.setIfInBounds die ((s.dev.corrected[die]?.getD 0) + 1) } }

/-- UNCORRECTABLE_ERROR (R285). Kind 0: the L2 line with a line key. 1: the HBM line with a storage line number. 2: a near-cache
word, core + 2^16 · word. 3: a scratchpad byte, core + 2^16 · offset. 4: registers or tables of a core, or memories of a dense
tile, by core number, with a free address. -/
def State.uncorrectableError (s : State) (kind loc : Nat) : State :=
  let cn := loc % 2 ^ 16
  match kind with
  | 0 =>
    match getKey s.l2 loc with
    | none => s
    | some l =>
      if l.dirty = 0 then (s.dropLine loc).correctedError (dieOf (loc / 2 ^ 49))
      else { s with l2 := putKey s.l2 loc { l with poison := true } }
  | 1 => { s with poison := insertNat loc s.poison }
  | 2 => (s.modCore cn fun c => { c with near := delKey c.near (loc / 2 ^ 16) }).correctedError (dieOf cn)
  | 3 => if (s.partOf? cn).isSome then s.fatalAlone (s.partNo cn) 0x13 cn (globalScratch cn (loc / 2 ^ 16 % 2 ^ 16)) else s
  | 4 => if (s.partOf? cn).isSome then s.fatalAlone (s.partNo cn) 0x13 cn (s.openAddr.toNat) else s
  | _ => s

/-- What becomes of a count at the end of a period in which it rose: a record that is written starts it anew (R292). -/
def countLeft (written : Bool) (n : Nat) : Nat := if written then 0 else n

/-- The KIND 7 record of a partition's collisions on a die, when there were any in the period (R228, R292). -/
def State.reportCollisions (s : State) (die : Nat) (p : Nat × Part) : State :=
  let n := p.2.collisions[die]?.getD 0
  if n ≤ p.2.collSeen[die]?.getD 0 then s
  else
    let left := countLeft (s.takesRecord p.1 1) n
    (s.modPart p.1 fun x => { x with collisions := x.collisions.setIfInBounds die left, collSeen := x.collSeen.setIfInBounds die left }).report
      p.1 [errRecord 7 0x09 (p.2.colliders[die]?.getD 0) 0 0 die n]

/-- ERROR_COUNT_REPORT (R292): at the end of a period, for the counts of a die that rose. -/
def State.errorCountReport (s : State) (die : Nat) : State :=
  if !s.periodEnd then s
  else
    let n := s.dev.corrected[die]?.getD 0
    let left := countLeft (s.dev.eq.takes 1) n
    let s1 := if n ≤ s.dev.corrSeen[die]?.getD 0 then s
      else ({ s with dev := { s.dev with
        corrected := s.dev.corrected.setIfInBounds die left, corrSeen := s.dev.corrSeen.setIfInBounds die left } }).reportDevice
        [errRecord 8 0 0 0 0 die n]
    s1.parts.foldl (fun t p => t.reportCollisions die p) s1

/-! ### Faults at fetch (R79, R329) -/

/-- INSTRUCTION_FETCH_FAULT (R60, R329): the fetch of the strand's next bundle fails. -/
def State.fetchFault (s : State) : State :=
  let cn := s.cur.cn
  let slot := s.cur.slot
  let t := s.strand cn slot
  match s.fetchAt cn slot t.pc t.jumped with
  | (.fault 0xFF _, _) => s
  | (.fault c a, u) => u.takeException cn slot c a t.pc t.pc
  | (.poison pa, u) => u.fatalStop (s.partNo cn) 0x13 cn slot t.pc pa
  | (.words _, _) => s

/-! ### The arms of the events -/

/-- An event has a next state always. -/
abbrev event (t : State) : Out := .next t

def execRegisterWrite (page off : Nat) (v : BitVec 64) (s : State) : Out := event (s.byHost fun t => t.hostRegister page off v.toNat)
def execLnotify (p : Nat) (v : BitVec 64) (s : State) : Out := event (s.byFunction (0x100 + p) 0x000 fun t => t.notifyLaunch p v.toNat)
def execLcons (p : Nat) (v : BitVec 64) (s : State) : Out := event (s.setLcons p v.toNat)
def execRoutbase (p cn : Nat) (v : BitVec 64) (s : State) : Out := event (s.writeRoutbase p cn v.toNat)
def execRoutineLoadDone (p : Nat) (s : State) : Out := event (s.routineLoadDone p)
def execDomload (p cn : Nat) (v : BitVec 64) (s : State) : Out := event (s.writeDomload p cn v.toNat)
def execDomainLoadDone (p : Nat) (s : State) : Out := event (s.domainLoadDone p)
def execGangStop (p : Nat) (s : State) : Out := event (s.byFunction (0x100 + p) 0x018 fun t => t.gangStop p)
def execGangStopSave (p : Nat) (s : State) : Out := event (s.gangSave p)
def execRestore (p : Nat) (s : State) : Out := event (s.byFunction (0x100 + p) 0x018 fun t => t.restorePart p)
def execReissue (p : Nat) (s : State) : Out := event (s.byFunction (0x100 + p) 0x018 fun t => t.reissuePart p)
def execEqcons (page : Nat) (v : BitVec 64) (s : State) : Out :=
  event (s.byHost fun t => t.hostRegister page 0x030 v.toNat)
def execCreate (p : Nat) (s : State) : Out := event (s.byFunction 0 0x078 fun t => t.askCreate p)
def execCreationDone (s : State) : Out := event s.finishCreate
def execDestroy (p : Nat) (s : State) : Out := event (s.byFunction 0 0x078 fun t => t.destroyPart p)
def execPcap (v : BitVec 64) (s : State) : Out := event (s.byFunction 0 0x068 fun t => t.setPcap v.toNat)
def execThrottleUpdate (s : State) : Out := event s.throttleUpdate
def execPowerOn (s : State) : Out := event s.powerOn
def execFirmwareUpdate (image : List (BitVec 8)) (s : State) : Out := event (s.firmwareUpdate image)
def execSpdmMeasurements (s : State) : Out := event s.spdmMeasurements
def execDeviceNumber (n : BitVec 16) (s : State) : Out := event (s.deviceNumber n.toNat)
def execExtentRelease (e : Nat) (s : State) : Out := event (s.extentRelease e)
def execExtentReleaseAck (e : Nat) (s : State) : Out := event (s.extentReleaseAck e)
def execForcedRevocation (e : Nat) (s : State) : Out := event (s.forcedRevocation e)
def execRowRequest (dev cn tslot elem table id ver : Nat) (s : State) : Out :=
  event (s.rowRequest dev cn tslot elem table id ver)
def execRowReply (cn tslot elem cause : Nat) (row : List (BitVec 8)) (s : State) : Out :=
  event (s.rowReply cn tslot elem cause row)
def execMessageArrival (i : Nat) (s : State) : Out := event (s.messageArrival i)
def execHeldMessageAccept (cn : Nat) (s : State) : Out := event (s.heldAccept cn)
def execHandlerStart (cn : Nat) (s : State) : Out := event (s.handlerStart cn)
def execFaultEntry (cn : Nat) (s : State) : Out := event (s.faultEntry cn)
def execTicketFaultEntry (cn : Nat) (s : State) : Out := event (s.ticketFaultEntry cn)
def execTaskRequest (i : Nat) (s : State) : Out := event (s.taskRequest i)
def execTaskAck (i : Nat) (s : State) : Out := event (s.taskAck i)
def execDecrement (i : Nat) (s : State) : Out := event (s.decrement i)
def execTaskAging (cn : Nat) (s : State) : Out := event (s.taskAging cn)
def execEngineGrant (cn eng : Nat) (s : State) : Out := event (s.engineGrant cn eng)
def execTicketElementEnd (cn tslot : Nat) (s : State) : Out := event (s.ticketElementEnd cn tslot)
def execCollectiveCombine (die dom : Nat) (s : State) : Out := event (s.collectiveCombine die dom)
def execMrotShift (cn : Nat) (s : State) : Out := event (s.mrotShift cn)
def execMcmdArrival (i : Nat) (s : State) : Out := event (s.mcmdArrival i)
def execStepTagGrant (i : Nat) (s : State) : Out := event (s.stepTagGrant i)
def execTstepRequest (i : Nat) (s : State) : Out := event (s.tstepRequest i)
def execRowUpdate (i : Nat) (s : State) : Out := event (s.rowUpdate i)
def execShipApply (i : Nat) (s : State) : Out := event (s.shipApply i)
def execWeightSetRequest (i : Nat) (s : State) : Out := event (s.weightSetRequest i)
def execHomeAccess (i : Nat) (s : State) : Out := event (s.homeAccess i)
def execLossNotice (i : Nat) (s : State) : Out := event (s.lossNotice i)
def execRegisterWriteback (cn slot i : Nat) (s : State) : Out := event (s.registerWriteback cn slot i)
def execDividerRelease (cn slot : Nat) (s : State) : Out := event (s.dividerRelease cn slot)
def execBarrierComplete (die dom : Nat) (s : State) : Out := event (s.barrierComplete die dom)
def execPhaseClose (cn : Nat) (s : State) : Out := event (s.phaseClose cn)
def execScheduledDeparture (i : Nat) (s : State) : Out := event (s.scheduledDeparture i)
def execScheduledArrival (i : Nat) (s : State) : Out := event (s.scheduledArrival i)
def execHotPagePeriod (s : State) : Out := event s.hotPagePeriod
def execPageMoveSwitch (i : Nat) (s : State) : Out := event (s.pageMoveSwitch i)
def execWatchdog (cn slot : Nat) (s : State) : Out := event (s.watchdog cn slot)
def execUncorrectableError (kind loc : Nat) (s : State) : Out := event (s.uncorrectableError kind loc)
def execCorrectedError (die : Nat) (s : State) : Out := event (s.correctedError die)
def execErrorCountReport (die : Nat) (s : State) : Out := event (s.errorCountReport die)
/-- ILLEGAL_INSTRUCTION (R79, R80, R94). -/
def execIllegalInstruction (_w : BitVec 32) (s : State) : Out := s.settle (.trap 0x01 0)
def execInstructionFetchFault (s : State) : Out := event s.fetchFault
def execExtentGrant (e p dev : Nat) (s : State) : Out := event (s.extentGrant e p dev)
def execPowerLoss (s : State) : Out := event s.powerLoss
def execSlotArm (cn slot : Nat) (s : State) : Out := event (s.slotArm cn slot)

end Sys2Proof.Machine
end

