-- ==== Sys2Proof/Machine/Simd.lean ====
section
/-! DEFINITION. The SIMD instructions of MAJ 0x18 to 0x1F (R417 to R423) over lanes (R69), with the conversions of R111 to
R115 and the sums of R118 to R121. -/
namespace Sys2Proof.Machine

/-- FCTL.RM and FCTL.FTZ of the executing strand. -/
def State.rm (s : State) : Nat := fctlRm s.src.fctl.toNat
def State.ftz (s : State) : Bool := fctlFtz s.src.fctl.toNat

/-- The signed types i8 to i64 (R98). -/
def isSignedType (t : Nat) : Bool := t < 4

/-- Lanes of type t under a predicate, from a function of the lane number, with vector operands that may be ports. -/
def State.lanewise (s : State) (latency t : Nat) (srcs : List (BitVec 4)) (d : BitVec 4) (p : BitVec 5)
    (f : Nat → Nat × Nat) : Out :=
  let w := typeWidth t
  let n := lanesOf t
  let pm := s.p p.toNat
  let old := s.vOld d
  s.settle (s.withPorts srcs [d] fun s0 =>
    .done (s0.setV latency d (mergeLanes w n pm old fun i => (f i).1)) (laneFlags n pm fun i => (f i).2))

/-- A lane-wise function of two vectors. -/
def State.lanes2 (s : State) (latency : Nat) (t : BitVec 4) (d a b : BitVec 4) (p : BitVec 5) (f : Nat → Nat → Nat × Nat) : Out :=
  let w := typeWidth t.toNat
  let x := s.v a
  let y := s.v b
  s.lanewise latency t.toNat [a, b] d p fun i => f (lane x w i) (lane y w i)

/-- A lane-wise function of one vector. -/
def State.lanes1 (s : State) (latency : Nat) (t : BitVec 4) (d a : BitVec 4) (p : BitVec 5) (f : Nat → Nat × Nat) : Out :=
  let w := typeWidth t.toNat
  let x := s.v a
  s.lanewise latency t.toNat [a] d p fun i => f (lane x w i)

/-- An integer or a float operation on lanes of type t. -/
def arith (t : Nat) (i : Int → Int → Int) (f : Nat → Nat → Nat × Nat) (x y : Nat) : Nat × Nat :=
  if t < 8 then (wrapN (i (intVal t x) (intVal t y)) (typeWidth t), 0) else f x y

/-- The smaller or larger of two lanes (R118, R417). -/
def laneMinMax (isMax : Bool) (t : Nat) (ftz : Bool) (x y : Nat) : Nat × Nat :=
  arith t (fun a b => if isMax then max a b else min a b) (fMinMax isMax t ftz) x y

/-- The sum of two lanes. -/
def laneAdd (t rm : Nat) (ftz : Bool) (x y : Nat) : Nat × Nat := arith t (· + ·) (fAdd t rm ftz) x y

/-- VADD (R417). -/
def execVadd (d a b : BitVec 4) (p : BitVec 5) (t : BitVec 4) (s : State) : Out :=
  s.lanes2 2 t d a b p (laneAdd t.toNat s.rm s.ftz)
/-- VSUB (R417). -/
def execVsub (d a b : BitVec 4) (p : BitVec 5) (t : BitVec 4) (s : State) : Out :=
  s.lanes2 2 t d a b p (arith t.toNat (· - ·) (fSub t.toNat s.rm s.ftz))
/-- VMUL (R417). -/
def execVmul (d a b : BitVec 4) (p : BitVec 5) (t : BitVec 4) (s : State) : Out :=
  s.lanes2 4 t d a b p (arith t.toNat (· * ·) (fMul t.toNat s.rm s.ftz))
/-- VMIN (R417). -/
def execVmin (d a b : BitVec 4) (p : BitVec 5) (t : BitVec 4) (s : State) : Out :=
  s.lanes2 2 t d a b p (laneMinMax false t.toNat s.ftz)
/-- VMAX (R417). -/
def execVmax (d a b : BitVec 4) (p : BitVec 5) (t : BitVec 4) (s : State) : Out :=
  s.lanes2 2 t d a b p (laneMinMax true t.toNat s.ftz)

/-- A float lane with its sign changed exactly: a NaN gives the canonical NaN, a signalling one NV; a subnormal of f32 or
bf16 reads as zero under FTZ (R106, R417). -/
def signLane (t : Nat) (ftz : Bool) (x : Nat) (neg : Bool → Bool) : Nat × Nat :=
  match fIn t ftz x with
  | .nan sg => nanBits t sg
  | .inf n => (withSign t (neg n) ((2 ^ (fmtOf t).ebits - 1) * 2 ^ (fmtOf t).fbits), 0)
  | .fin n m _ =>
    let half := 2 ^ (typeWidth t - 1)
    (withSign t (neg n) (if m = 0 then 0 else x % half), 0)

/-- VABS (R417). -/
def execVabs (d a : BitVec 4) (p : BitVec 5) (t : BitVec 4) (s : State) : Out :=
  s.lanes1 2 t d a p fun x =>
    if t.toNat < 8 then (wrapN (intVal t.toNat x).natAbs (typeWidth t.toNat), 0)
    else signLane t.toNat s.ftz x fun _ => false
/-- VNEG (R417). -/
def execVneg (d a : BitVec 4) (p : BitVec 5) (t : BitVec 4) (s : State) : Out :=
  s.lanes1 2 t d a p fun x =>
    if t.toNat < 8 then (wrapN (0 - intVal t.toNat x) (typeWidth t.toNat), 0)
    else signLane t.toNat s.ftz x fun n => !n

/-- VLOGIC (R418): and, or, xor, andn on 16 byte lanes. -/
def execVlogic (d a b : BitVec 4) (p : BitVec 5) (o : BitVec 3) (s : State) : Out :=
  s.lanes2 2 0 d a b p fun x y =>
    (match o.toNat with
      | 0 => x &&& y
      | 1 => x ||| y
      | 2 => x ^^^ y
      | _ => x &&& (255 - y), 0)

/-- VSH (R418): shl, shr, shra, rot by the lane counts of vb. -/
def execVsh (d a b : BitVec 4) (p : BitVec 5) (t : BitVec 4) (o : BitVec 3) (s : State) : Out :=
  let w := typeWidth t.toNat
  let op := match o.toNat with
    | 0 => ShiftOp.shl
    | 1 => .shr
    | 2 => .shra
    | _ => .rot
  s.lanes2 2 t d a b p fun x y => (shiftBits op w x (y % w), 0)

/-! ### Comparison and selection (R419) -/

/-- Condition c on two lanes, with its flags. -/
def laneCmp (t : Nat) (ftz : Bool) (c x y : Nat) : Bool × Nat :=
  let by_ (o : Int) : Bool :=
    match c with
    | 0 => o == 0
    | 1 => o != 0
    | 2 => o < 0
    | 3 => 0 ≤ o
    | 4 => o ≤ 0
    | _ => 0 < o
  if t < 8 then (by_ (intVal t x - intVal t y), 0)
  else
    let u := fIn t ftz x
    let v := fIn t ftz y
    if u.isNan || v.isNan then (c == 1, flagIf (2 ≤ c || u.isSig || v.isSig) fNV)
    else (by_ (u.cmp v), 0)

/-- VCMP (R419): governed-off bits keep their value, bits above the lane count are cleared. -/
def execVcmp (d a b : BitVec 4) (p : BitVec 5) (t : BitVec 4) (c : BitVec 3) (s : State) : Out :=
  let w := typeWidth t.toNat
  let n := lanesOf t.toNat
  let x := s.v a
  let y := s.v b
  let pm := s.p p.toNat
  let old := s.p d.toNat
  let f (i : Nat) := laneCmp t.toNat s.ftz c.toNat (lane x w i) (lane y w i)
  let bits := ofLanes 1 ((List.range n).map fun i => b2n (if pm.getLsbD i then (f i).1 else old.getLsbD i))
  s.settle (s.withPorts [a, b] [] fun s0 =>
    .done (s0.setP 2 d.toNat (BitVec.ofNat 16 bits)) (laneFlags n pm fun i => (f i).2))

/-- VSEL (R419): a lane whose bit is 0 takes vb. -/
def execVsel (d a b : BitVec 4) (p : BitVec 5) (t : BitVec 4) (s : State) : Out :=
  let w := typeWidth t.toNat
  let x := s.v a
  let v := mergeLanes w (lanesOf t.toNat) (s.p p.toNat) (s.v b) fun i => lane x w i
  s.settle (s.withPorts [a, b] [d] fun s0 => .done (s0.setV 2 d v) 0)

/-! ### Lanes and scalars (R420) -/

/-- VSHUF (R420). -/
def execVshuf (d a b : BitVec 4) (s : State) : Out :=
  let x := s.v a
  let y := s.v b
  let v := ofLanes 8 ((List.range 16).map fun i => if 16 ≤ lane y 8 i then 0 else lane x 8 (lane y 8 i))
  s.settle (s.withPorts [a, b] [d] fun s0 => .done (s0.setV 2 d (BitVec.ofNat 128 v)) 0)

/-- VBCAST (R420). -/
def execVbcast (d a : BitVec 4) (p : BitVec 5) (t : BitVec 4) (s : State) : Out :=
  let x := (s.x (a.setWidth 5)).toNat
  s.lanewise 2 t.toNat [] d p fun _ => (x % 2 ^ typeWidth t.toNat, 0)

/-- VEXT (R420). -/
def execVext (d a l t : BitVec 4) (s : State) : Out :=
  let w := typeWidth t.toNat
  let x := lane (s.v a) w l.toNat
  let v := if isSignedType t.toNat then sextW x w else BitVec.ofNat 64 x
  s.settle (s.withPorts [a] [] fun s0 => .done (s0.setX 2 (d.setWidth 5) v) 0)

/-- VINS (R420). -/
def execVins (d a l t : BitVec 4) (s : State) : Out :=
  let w := typeWidth t.toNat
  let x := (s.x (a.setWidth 5)).toNat
  let old := s.vOld d
  let v := mergeLanes w (lanesOf t.toNat) (BitVec.ofNat 16 (2 ^ l.toNat)) old fun _ => x
  s.settle (s.withPorts [] [d] fun s0 => .done (s0.setV 2 d v) 0)

/-! ### Conversion (R111 to R115, R421) -/

/-- One element converted from type st to type dt in a mode: 0, 1 (.ovf), or 2 for .sr with a random field of rw bits. -/
def convert (st dt rm : Nat) (ftz : Bool) (mode r rw x : Nat) : Nat × Nat :=
  let wd := typeWidth dt
  let sr := if mode = 2 then some (r, rw) else none
  if st < 8 && dt < 8 then
    let v := intVal st x
    if mode = 1 then (wrapN v wd, 0)
    else
      let c := clampInt v wd (isSignedType dt)
      (c.1, flagIf c.2 fISAT)
  else
    let v := if st < 8 then FVal.ofInt (intVal st x) else fIn st ftz x
    if dt < 8 then fToInt v wd (isSignedType dt) rm sr
    else match sr with
      | some (r, rw) => sRound dt v r rw
      | none => fPut dt rm ftz (if mode = 1 then .ovf else defaultPolicy dt) v

/-- VCVT (R111, R421): bits above the L elements are cleared. -/
def execVcvt (d a st c t : BitVec 4) (p : BitVec 5) (s : State) : Out :=
  let ws := typeWidth st.toNat
  let wd := typeWidth t.toNat
  let n := 128 / max ws wd
  let w := 128 / n
  let x := s.v a
  let r := s.v c
  let mode := min c.toNat 2
  let pm := s.p p.toNat
  let old := s.vOld d
  let governed (i : Nat) : Bool := pm.getLsbD (if wd = 4 then i / 2 else i)
  let f (i : Nat) := convert st.toNat t.toNat s.rm s.ftz mode (lane r w i) w (lane x ws i)
  let v := ofLanes wd ((List.range n).map fun i => if governed i then (f i).1 else lane old wd i)
  let flags := (List.range n).foldl (fun acc i => if governed i then acc ||| (f i).2 else acc) 0
  s.settle (s.withPorts (a :: if mode = 2 then [c] else []) [d] fun s0 =>
    .done (s0.setV 4 d (BitVec.ofNat 128 v)) flags)

/-! ### Sums of products (R118 to R121, R422) -/

/-- VFMA (R121). -/
def execVfma (d a b c t : BitVec 4) (p : BitVec 5) (s : State) : Out :=
  let ty := t.toNat
  let w := typeWidth ty
  let x := s.v a
  let y := s.v b
  let z := s.v c
  let f (i : Nat) := fFma ty s.rm s.ftz (fIn ty s.ftz (lane x w i)) (fIn ty s.ftz (lane y w i)) (fIn ty s.ftz (lane z w i))
  s.lanewise 4 ty [d, a, b, c] d p f

/-- One accumulator lane of VDOT (R119): the products in lane order, one rounding each. R106 speaks of a tiny result that is written;
here FTZ flushes each of the sums, as VRED does at each node of its tree (DESIGN CHOICE, log 79). -/
def dotLane (t rm : Nat) (ftz : Bool) (acc : Nat) : List (Nat × Nat) → Nat × Nat
  | [] => (acc, 0)
  | (x, y) :: r =>
    let q := fFma 8 rm ftz (fIn t ftz x) (fIn t ftz y) (fIn 8 ftz acc)
    let u := dotLane t rm ftz q.1 r
    (u.1, q.2 ||| u.2)

/-- The lane pairs of accumulator lane j, g to a lane. -/
def lanePairs (x y : VWord) (w g j : Nat) : List (Nat × Nat) :=
  (List.range g).map fun k => (lane x w (g * j + k), lane y w (g * j + k))

/-- VDOT (R119). -/
def execVdot (d a b t : BitVec 4) (p : BitVec 5) (s : State) : Out :=
  let w := typeWidth t.toNat
  let x := s.v a
  let y := s.v b
  let z := s.v d
  let old := s.vOld d
  let pm := s.p p.toNat
  let f (j : Nat) := dotLane t.toNat s.rm s.ftz (lane z 32 j) (lanePairs x y w (32 / w) j)
  s.settle (s.withPorts [d, a, b] [d] fun s0 =>
    .done (s0.setV 4 d (mergeLanes 32 4 pm old fun j => (f j).1)) (laneFlags 4 pm fun j => (f j).2))

/-- One accumulator lane of VMACI (R120). -/
def maciLane (t : Nat) (wrap : Bool) (acc : Int) : List (Nat × Nat) → Int × Bool
  | [] => (acc, false)
  | (x, y) :: r =>
    let e := acc + intVal t x * intVal t y
    let c := clampInt e 32 true
    let u := maciLane t wrap (if wrap then e else signed c.1 32) r
    (u.1, (!wrap && c.2) || u.2)

/-- VMACI (R120). -/
def execVmaci (d a b : BitVec 4) (wr : BitVec 1) (t : BitVec 4) (p : BitVec 5) (s : State) : Out :=
  let w := typeWidth t.toNat
  let x := s.v a
  let y := s.v b
  let z := s.v d
  let old := s.vOld d
  let pm := s.p p.toNat
  let f (j : Nat) := maciLane t.toNat (wr == 1) (signed (lane z 32 j) 32) (lanePairs x y w (32 / w) j)
  s.settle (s.withPorts [d, a, b] [d] fun s0 =>
    .done (s0.setV 4 d (mergeLanes 32 4 pm old fun j => wrapN (f j).1 32))
      (laneFlags 4 pm fun j => flagIf (f j).2 fISAT))

/-! ### Reduction and functions (R118, R423) -/

/-- One level of the pairwise tree. -/
def treeLevel (op : Nat → Nat → Nat × Nat) : List Nat → List Nat × Nat
  | x :: y :: r =>
    let q := op x y
    let u := treeLevel op r
    (q.1 :: u.1, q.2 ||| u.2)
  | l => (l, 0)

/-- The pairwise tree over some levels. -/
def treeReduce (op : Nat → Nat → Nat × Nat) : Nat → List Nat → Nat × Nat
  | 0, l => (l.headD 0, 0)
  | k + 1, l =>
    let u := treeLevel op l
    let r := treeReduce op k u.1
    (r.1, u.2 ||| r.2)

/-- VRED (R118): add, min or max into lane 0; every other lane is cleared. -/
def execVred (d a o t : BitVec 4) (s : State) : Out :=
  let ty := t.toNat
  let w := typeWidth ty
  let n := lanesOf ty
  let x := s.v a
  let op := match o.toNat with
    | 0 => laneAdd ty s.rm s.ftz
    | 1 => laneMinMax false ty s.ftz
    | _ => laneMinMax true ty s.ftz
  let r := treeReduce op (log2N n) ((List.range n).map fun i => lane x w i)
  s.settle (s.withPorts [a] [d] fun s0 => .done (s0.setV 4 d (BitVec.ofNat 128 r.1)) r.2)

/-- VRCP (R423). -/
def execVrcp (d a : BitVec 4) (p : BitVec 5) (t : BitVec 4) (s : State) : Out := s.lanes1 8 t d a p (fRcp t.toNat s.rm s.ftz)
/-- VRSQ (R423). -/
def execVrsq (d a : BitVec 4) (p : BitVec 5) (t : BitVec 4) (s : State) : Out := s.lanes1 8 t d a p (fRsq t.toNat s.rm s.ftz)
/-- VEXP2 (R423). -/
def execVexp2 (d a : BitVec 4) (p : BitVec 5) (t : BitVec 4) (s : State) : Out := s.lanes1 8 t d a p (fExp2 t.toNat s.rm s.ftz)
/-- VLOG2 (R423). -/
def execVlog2 (d a : BitVec 4) (p : BitVec 5) (t : BitVec 4) (s : State) : Out := s.lanes1 8 t d a p (fLog2 t.toNat s.rm s.ftz)

end Sys2Proof.Machine
end

