-- ==== Sys2Proof/Machine/Strands.lean ====
section
/-! DEFINITION. Strands, tasks, traps and contexts: SPAWN, JOIN, EXIT, YIELD (R32 to R35), TASK, DECR, NEXT (R42 to R44), TRAP,
RTE, IDLE (R274, R361, R395, R416), CTXSV, CTXLD (R345 to R347), MODE (R256, R380), TLBI (R154, R415). -/
namespace Sys2Proof.Machine

/-! ### Helpers -/

/-- Whether a helper slot is live. -/
def Core.helperLive (c : Core) (i : Nat) : Bool := 1 ≤ i && i ≤ 10 && (c.strand i).live

/-- Whether every helper slot is empty. -/
def Core.noHelpers (c : Core) : Bool := (List.range 11).all fun i => !c.helperLive i

/-- The lowest empty helper slot (R32). -/
def Core.freeHelper (c : Core) : Option Nat := ((List.range 11).drop 1).find? fun i => !(c.strand i).live

/-- The helper strand that SPAWN starts (R32). -/
def Strand.helper (t : Strand) (pc : Addr) (arg : Word) (ordinal : Nat) : Strand :=
  { Strand.empty.setX 3 arg with
    live := true, pc := pc, sup := t.sup, fctl := t.fctl, rkey := t.rkey, jumped := true
    sid := BitVec.ofNat 64 (fld t.sid.toNat 32 32 * 2 ^ 32 + ordinal * 2 ^ 16) }

/-- SPAWN (R32, R405): the release at core scope comes before the helper's first instruction. -/
def execSpawn (d a b : BitVec 5) (s : State) : Out :=
  let pc := s.x a
  let ordinal := fld (s.x d).toNat 0 16
  let arg := s.x b
  s.settle (s.slot0 (
    if pc.toNat % 4 ≠ 0 then .trap 0x04 pc
    else if 2 ^ 56 ≤ pc.toNat then .trap 0x07 pc
    else match s.myCore.freeHelper with
      | none => .mark .restart
      | some h =>
        if s.releaseWaits s.cur.cn s.cur.slot 1 then .mark .restart
        else
          let t := s.src.helper (pc.setWidth 56) arg ordinal
          .done ((s.modStrand s.cur.cn h fun _ => t).setX 1 d (BitVec.ofNat 64 h)) 0))

/-- JOIN (R33, R364). -/
def execJoin (a : BitVec 5) (s : State) : Out :=
  let named (i : Nat) : Bool := a = 0 || bit (s.x a).toNat i
  s.settle (s.slot0 (
    if (List.range 11).any fun i => s.myCore.helperLive i && named i then .wait
    else .done (s.acquire s.cur.cn 1) 0))

/-! ### Ends of strands -/

/-- A slot empties: its waits end with it, and its claim of the ports (R34, R235). -/
def Core.emptySlot (c : Core) (slot : Nat) : Core :=
  { (c.endIssuer slot).setStrand slot { c.strand slot with
      live := false, susp := none, refusal := none, ordHeld := [], inEntry := false, holds := [], await := none, pend := [], arm := none, rep := none, rest := []
      late := [], mid := none, fetched := [], divFree := 0, notReady := 0, yielded := false, jumped := false } with
    regs := { c.regs with claim := if c.regs.claim = some slot then none else c.regs.claim } }

/-- The tickets of an ended strand pass on (R211): its detached ones, or all of them when its waits were skipped (R274). -/
def Core.orphan (c : Core) (slot : Nat) (all : Bool) : Core :=
  { c with tickets := c.tickets.map fun t =>
      if t.live && t.owner == slot && (all || t.det) then
        { t with owner := if slot = 0 then 15 else 0, det := true, seen := t.seen && !all }
      else t }

/-- The handler's EXIT in a strand entry ends the suspended strand (R274). -/
def State.endSuspended (s : State) (slot : Nat) : State :=
  (s.modMyCore fun c => ((c.emptySlot slot).orphan slot true).endHandler).sweepTickets s.cur.cn

/-- The implicit wait of EXIT or NEXT for the attached tickets (R34, R44, R208): 0x11 on a FAULTED one, the wait, or the
observation of all, with its acquire (R209), and the rest of the word. -/
def State.implicitWaits (s : State) (next : Bool) (k : State → Res) : Res :=
  let c := s.myCore
  let own := c.attached s.cur.slot
  match own.find? fun n => (c.ticket n).st == .faulted with
  | some n => .trap 0x11 (BitVec.ofNat 64 (handleOf (c.ticket n).gen n))
  | none =>
    if own.any fun n => (c.ticket n).st == .pending then .start (.observe next)
    else
      let waited := match s.held with
        | some (.implicit _) => true
        | _ => false
      k ((s.observeAttached s.cur.slot).acquire s.cur.cn (if own.isEmpty && !waited then 0 else 5))

/-- EXIT (R34, R274, R351). -/
def execExit (s : State) : Out :=
  let slot := s.cur.slot
  s.settle (
    if slot = 11 then
      match s.myCore.run with
      | .strand k => .done (s.endSuspended k) 0
      | _ => .done (s.modMyCore Core.endHandler) 0
    else if slot = 0 && !s.myCore.noHelpers then .wait
    else s.implicitWaits false fun t =>
      if slot ≠ 0 && s.releaseWaits s.cur.cn slot 4 then .start (.observe false)
      else .done (t.modMyCore fun c => (c.orphan slot false).emptySlot slot) 0)

/-- YIELD (R35, R428). -/
def execYield (s : State) : Out := s.settle (.done (s.modMe fun t => { t with yielded := true }) 0)

/-! ### Tasks -/

/-- Whether a core number names a core of the executing strand's partition (R14). -/
def State.mine (s : State) (cn : Nat) : Bool := (s.partFor s.cur.cn).holds cn

/-- TASK (R42, R52, R411). -/
def execTask (d a b : BitVec 5) (s : State) : Out :=
  let va := s.x a
  let cn := fld (s.x b).toNat 0 16
  let off := fld (s.x b).toNat 16 16
  s.settle (match s.held with
    | some (.replied h none) => .done (s.setX 1 d h) 0
    | some (.replied _ (some (c, f))) => .trap c f
    | some (.reply _) => .wait
    | _ =>
      if va.toNat % 8 ≠ 0 then .trap 0x04 va
      else if 0x10000 < va.toNat + 24 then .trap 0x07 va
      else if !s.mine cn then .trap 0x07 s.openAddr
      else if off % 32 ≠ 0 then .trap 0x04 (BitVec.ofNat 64 off)
      else match s.readStrand va 24 with
        | (.error e, _) => readStop e
        | (.ok spec, t) =>
          let sup := bit (leAt spec 0x16 2) 2
          if sup && !s.me.sup then .trap 0x03 0
          else if leAt spec 0 8 % 4 ≠ 0 then .trap 0x04 (wordAt spec 0)
          else .start (.request { t.request (.scratch cn off) (.task off spec sup) 0 with slot := s.cur.slot }))

/-- DECR (R43, R348): the release, then the posted decrement. -/
def execDecr (a : BitVec 5) (s : State) : Out :=
  let h := s.x a
  let cn := fld h.toNat 0 16
  let off := fld h.toNat 16 16
  s.settle (
    if !s.mine cn then .trap 0x07 (BitVec.ofNat 64 cn)
    else if off % 32 ≠ 0 then .trap 0x04 (BitVec.ofNat 64 off)
    else if s.releaseWaits s.cur.cn s.cur.slot 4 then .wait
    else .done (s.send [s.request (.scratch cn off) (.decr h) 0]) 0)

/-- NEXT takes the record at an offset (R44): the run list loses it, and the strand starts the task. -/
def State.takeTask (s : State) (d : BitVec 5) (level off : Nat) : State :=
  let cn := s.cur.cn
  let r := s.taskRec cn off
  let s1 := (s.setTaskRec cn off (setFld r 181 2 3)).modMyCore fun c =>
    { c with runList := c.runList.setIfInBounds level (c.level level).tail }
  let no := recTaskNo r
  let s2 := s1.modMe fun t =>
    { ((t.setX 1 (s.cur.pc.setWidth 64)).setX 3 (BitVec.ofNat 64 (recArg r))).setX 4 (BitVec.ofNat 64 no) with
      sid := BitVec.ofNat 64 (no * 2 ^ 32), draw := 0, sup := recSup r }
  ((s2.setX 1 d (taskHandle no off cn)).acquire cn 4).jump (BitVec.ofNat 56 (recEntry r / 4 * 4))

/-- NEXT (R44, R383): each wait starts again from the first step (R52). Tasks that age in this cycle move first (R45). -/
def execNext (d : BitVec 5) (s : State) : Out :=
  s.settle (s.slot0 (
    if !s.myCore.noHelpers then .mark .restart
    else s.implicitWaits true fun t =>
      let u := t.taskAging s.cur.cn
      match u.myCore.topLevel with
      | none => if (s.myCore.attached 0).isEmpty then .mark .restart else .start (.observe true)
      | some l =>
        match (u.myCore.level l).head? with
        | none => .mark .restart
        | some e => .done (u.takeTask d l e.1) 0))

/-! ### Traps and idle -/

/-- TRAP (R416). -/
def execTrap (a : BitVec 5) (s : State) : Out := s.settle (.trap 0x10 (s.x a))

/-- RTE (R274, R395): the handler strand only, in supervisor mode. -/
def execRte (s : State) : Out :=
  s.settle (s.sup (if s.cur.slot ≠ 11 then .trap 0x01 0 else .done (s.modMyCore Core.returnFromHandler) 0))

/-- IDLE (R361). -/
def execIdle (s : State) : Out :=
  s.settle (s.sup (match s.held with
    | some .woken => .done s 0
    | some .idle => .wait
    | _ => if s.myCore.inbox.isEmpty then .start .idle else .done s 0))

/-! ### Contexts (R345 to R347) -/

/-- Whether a core has come to rest for CTXSV or CTXLD: no element runs and none of its requests is in flight. -/
def State.atRest (s : State) (cn : Nat) : Bool :=
  (s.core cn).tickets.toList.all (fun t => !t.running || t.collective) && s.net.all fun r => r.src != cn || match r.op with
    | .send _ => true
    | _ => false

/-- The checks of R345, then the wait for rest (R346). -/
def State.context (s : State) (load : Bool) (k : Res) : Res :=
  let c := s.myCore
  let base := c.regs.ctxbase
  s.sup (
    if s.cur.slot ≠ 0 || (s.held.isNone && (List.range 12).any fun i => i != 0 && (c.strand i).live) then .trap 0x07 s.openAddr
    else if base.toNat % 4096 ≠ 0 then .trap 0x04 base
    else if load && c.tickets.toList.any (·.live) then .trap 0x07 s.openAddr
    else if !s.atRest s.cur.cn then .mark .ctx
    else k)

/-- CTXSV (R346): slot 0's record holds the PC of the next bundle. -/
def execCtxsv (s : State) : Out :=
  s.settle (s.context false (
    let t := s.modMe fun u => { u with pc := s.cur.after, holds := [] }
    match s.writeBytes (s.access false true) s.cur.slot s.myCore.regs.ctxbase (t.packCore s.cur.cn) with
    | .error e => readStop e
    | .ok u => .done u 0))

/-- CTXLD (R347): the strand goes on at its record's PC. References to weight-set halves follow the loaded slots and tickets (R199). -/
def execCtxld (s : State) : Out :=
  s.settle (s.context true (
    match s.readBytes (s.access true false) s.myCore.regs.ctxbase 0x18000 with
    | (.error e, _) => readStop e
    | (.ok bs, t) =>
      let p := s.partNo s.cur.cn
      let u := ((t.unpackCore s.cur.cn bs false).startRefs p).dropRefs p
      .done (u.jump (u.me).pc) 0))

/-! ### MODE (R256, R380) -/

/-- Whether MODE's wait is over: every ticket of the core has ended and every pending register write of the core is done
(R256). The turns of the strand's own exposed writes stand still while it waits (R257, log 32). -/
def State.modeReady (s : State) : Bool :=
  s.myCore.tickets.toList.all (fun t => !t.live || t.st != .pending) &&
    (List.range 12).all fun i => !(s.myCore.strand i).live || (s.myCore.strand i).pend.isEmpty

/-- MODE (R380). -/
def State.setMode (s : State) (exposed : Bool) : Out :=
  s.settle (s.matrix (
    if s.modeReady then
      .done (s.modMyCore fun c => { c with regs := { c.regs with exposed := exposed } }) 0
    else match s.held with
      | some .mode => .wait
      | _ => .start .mode))

/-- MODE.exposed (R380). -/
def execModeExposed (s : State) : Out := s.setMode true
/-- MODE.scoreboard (R380). -/
def execModeScoreboard (s : State) : Out := s.setMode false

/-! ### TLBI (R154, R415) -/

/-- Requests that translated an address; a write that still loses ownership elsewhere is not performed (R165). -/
def ReqOp.translates : ReqOp → Bool
  | .load .. | .loadAcq .. | .store .. | .amo .. | .cas .. | .cflush | .cinv | .pref | .ship .. | .row _ | .rowReq .. | .stepTag _
  | .tstep .. | .vpub .. | .move .. | .loss .. => true
  | _ => false

/-- Whether a core lies in the scope of a TLBI. -/
def tlbiScope (cn scope x : Nat) : Bool :=
  match scope with
  | 1 => x == cn
  | 2 => tlbKey x == tlbKey cn
  | 3 => dieOf x == dieOf cn
  | _ => true

/-- Whether an access that translated before request number rid, in the scope of a TLBI, is still to be performed; what stands behind
a TLBI in its bundle comes after it. -/
def State.translating (s : State) (scope rid : Nat) : Bool :=
  let p := s.partNo s.cur.cn
  let behind (r : Req) : Bool := (s.strand r.src r.slot).holds.any (fun h => match h.2 with | .tlbi _ => true | _ => false) &&
    (s.strand r.src r.slot).rest.any fun t => t.first ≤ r.rid && r.rid < t.last
  s.underway.any fun r => r.rid < rid && r.part == p && r.op.translates && tlbiScope s.cur.cn scope r.src &&
    !s.cur.isLater r.rid && !(r.slot < 12 && behind r)

/-- TLBI (R154, R415); an address in an alias window is refused (R117). -/
def execTlbi (a : BitVec 5) (g : BitVec 1) (e : BitVec 3) (s : State) : Out :=
  let va := s.x a
  s.settle (s.sup (
    if a ≠ 0 && (2 ^ 56 ≤ va.toNat || aliasWindow va) then .trap 0x07 va
    else match s.held with
      | some (.tlbi rid) => if s.translating e.toNat rid then .wait else .done s 0
      | _ =>
        if s.translating e.toNat s.nextRid then .start (.tlbi e.toNat (g == 1) (if a = 0 then none else some va.toNat))
        else .done (s.invalidate s.cur.cn e.toNat (g == 1) (if a = 0 then none else some va.toNat)) 0))

end Sys2Proof.Machine
end

