-- ==== Sys2Proof/Machine/Sync.lean ====
section
/-! DEFINITION. Barriers and slots of MAJ 0x2D (R222 to R227, R326, R404), messages and control values of MAJ 0x27 (R230, R236,
R344, R400). -/
namespace Sys2Proof.Machine

/-- The domain that the executing core may use (R222): loaded, its partner too, and the core a member. -/
def State.usable (s : State) (cn dom : Nat) : Option Domain :=
  match s.dom? (dieOf cn) dom with
  | none => none
  | some d => if d.has (dieOf cn) cn && !(s.instanceOf (dieOf cn) dom).isEmpty then some d else none

/-- The slot bitmap of a domain's next phase (R224). -/
def State.slotBitmap (s : State) (dom : Nat) (d : Domain) : Except Stop (List Byte) × State :=
  let at_ := s.srcCore.regs.sltab + BitVec.ofNat 64 (2048 * dom + 128 * (d.count % d.nphase))
  s.readStrand at_ 128

/-- BAR and BARV (R222, R326): `fin` gets the AND and the OR of the instance's votes. -/
def State.barrier (s : State) (a : BitVec 5) (vote : Option Bool) (fin : Bool → Bool → Res) : Res :=
  let cn := s.cur.cn
  let dom := fld (s.x a).toNat 0 6
  match s.held with
  | some (.released allVotes anyVote) => fin allVotes anyVote
  | some (.barrier _ _ _) => .wait
  | _ =>
    match s.usable cn dom with
    | none => .trap 0x07 (BitVec.ofNat 64 dom)
    | some d =>
      if s.releaseWaits cn s.cur.slot 3 || (d.sched && s.myCore.phase.isSome) then .wait
      else if d.sched && !d.arrived.contains cn then
        match s.slotBitmap dom d with
        | (.error e, _) => readStop e
        | (.ok m, _) => .start (.arrive (dieOf cn) dom vote (some m))
      else .start (.arrive (dieOf cn) dom vote none)

/-- BAR (R326). -/
def execBar (a : BitVec 5) (s : State) : Out := s.settle (s.barrier a none fun _ _ => .done s 0)

/-- BARV (R222, R326). -/
def execBarv (d a b : BitVec 5) (o : BitVec 1) (s : State) : Out :=
  s.settle (s.barrier a (some ((s.p b.toNat).getLsbD 0)) fun allVotes anyVote =>
    .done (s.setP 1 d.toNat (if (if o = 1 then anyVote else allVotes) then 0xFFFF else 0)) 0)

/-- SLOT (R225, R404). -/
def execSlot (n : BitVec 10) (s : State) : Out :=
  let k := n.toNat
  s.settle (match s.myCore.phase with
    | none => .trap 0x09 (s.slotAddr k)
    | some p =>
      if p.nslot ≤ k || !bit (leNat p.owned) k || p.slotCycle k ≤ s.cycle then .trap 0x09 (s.slotAddr k)
      else if p.slotCycle k ≤ s.cycle + 22 then .done (s.modMe fun t => { t with arm := some k }) 0
      else .mark (.slot k))

/-- Whether the sending port of a core takes no further message (R280, R400). -/
def State.sendFull (s : State) (cn : Nat) : Bool :=
  16 ≤ (s.net.filter fun r => r.src == cn && match r.op with | .send _ => true | _ => false).length

/-- SEND (R230, R400). -/
def execSend (a b : BitVec 5) (n : BitVec 3) (s : State) : Out :=
  let w := s.x a
  let cn := fld w.toNat 0 16
  let dev := fld w.toNat 16 16
  let m : Msg := { target := w, srcDev := 0xFFFF, srcCn := s.cur.cn, arrived := 0
                   payload := (List.range n.toNat).map fun i => s.src.getX (b.toNat + i) }
  s.settle (
    if fld w.toNat 36 12 ≠ 0 || !isCore cn || !(s.isLocal dev || s.reaches dev) then .trap 0x07 w
    else s.exchange true fun t depart =>
      if t.sendFull t.cur.cn then .wait
      else .done (t.sendTo (if t.isLocal dev then .scratch cn 0 else .remote dev cn 0) (.send m) w none depart) 0)

/-- CTRLV (R236, R344). -/
def execCtrlv (q : BitVec 2) (a : BitVec 5) (s : State) : Out :=
  let v : VWord := BitVec.ofNat 128 ((s.x a).toNat % 256)
  s.settle (match s.portOf (12 + q.toNat) with
    | none => .trap 0x07 s.openAddr
    | some p =>
      if (neighbour s.cur.cn p).isNone then .trap 0x08 (BitVec.ofNat 64 (12 + q.toNat))
      else if s.pushFull p then .wait
      else .done (s.putPort p { tag := true, val := v }) 0)

end Sys2Proof.Machine
end

