-- ==== Sys2Proof/Machine/System.lean ====
section
/-! DEFINITION. The system registers of MAJ 0x38 (R57, R394, R426) with the effects of their writes (R233, R235, R124, R279),
and the generator words of MAJ 0x20 (R260 to R265). -/
namespace Sys2Proof.Machine

/-! ### Generator (R260 to R265) -/

/-- Draw n of a strand: Philox(RKEY, SID ∥ n) (R260). -/
def Strand.drawAt (t : Strand) (n : Word) : Nat := philox t.rkey.toNat (t.sid.toNat * 2 ^ 64 + n.toNat)

/-- RAND (R262). -/
def execRand (d : BitVec 4) (s : State) : Out :=
  let v := BitVec.ofNat 128 (s.src.drawAt s.src.draw)
  let n := s.src.draw + 1
  s.settle (s.withPorts [] [d] fun t => .done ((t.setV 1 d v).modMe fun u => { u with draw := n }) 0)

/-- RSKIP (R263). -/
def execRskip (a : BitVec 5) (s : State) : Out :=
  let n := s.src.draw + s.x a
  s.settle (.done (s.modMe fun u => { u with draw := n }) 0)

/-- RSTRM (R264): a user-mode strand stays in its task's streams. -/
def execRstrm (a b : BitVec 5) (s : State) : Out :=
  let sid := s.x a
  let key := s.x b
  let kept := key == s.src.rkey && fld sid.toNat 32 32 == fld s.src.sid.toNat 32 32
  s.settle (
    if !s.me.sup && !kept then .trap 0x03 0
    else .done (s.modMe fun u => { u with sid := sid, rkey := key, draw := 0 }) 0)

/-! ### Reading a system register (R394) -/

/-- The value of a system register for the executing strand (R57); none for a number that names none. -/
def State.sysReg (s : State) (n : Nat) : Option Word :=
  match n with
  | 0x000 => some s.src.fctl
  | 0x001 => some s.src.flags
  | 0x002 => some s.src.rkey
  | 0x003 => some s.src.sid
  | 0x004 => some s.src.draw
  | 0x006 => some (BitVec.ofNat 64 (s.cur.slot + 16 * b2n s.src.sup))
  | _ => (s.regWord s.srcCore s.srcPart s.cur.cn n).map (BitVec.ofNat 64)

/-- Registers with an SRO field (R57, R270, R279). -/
def hasSro (n : Nat) : Bool :=
  (0x020 ≤ n && n ≤ 0x023) || n == 0x027 || (0x040 ≤ n && n ≤ 0x046) || n == 0x060 || n == 0x061

/-- Registers with an SRW field (R46, R57, R233, R276, R279). -/
def hasSrw (n : Nat) : Bool :=
  (2 ≤ n && n ≤ 4) || n == 0x00A || (0x024 ≤ n && n ≤ 0x028) || (0x030 ≤ n && n ≤ 0x03F) || n == 0x050 || n == 0x051 ||
    n == 0x062

/-- RSYS (R394). -/
def execRsys (d : BitVec 5) (n : BitVec 12) (s : State) : Out :=
  s.settle (match s.sysReg n.toNat with
    | none => .trap 0x01 0
    | some v => if hasSro n.toNat && !s.me.sup then .trap 0x03 0 else .done (s.setX 1 d v) 0)

/-! ### Writing a system register (R426) -/

/-- Why a write of a system register is refused (R57, R233, R235): QCFG on a dense sequencer, a claim or release of ports that
another strand has claimed, or a handler table that is misaligned or leaves the scratchpad. -/
def State.refusesSys (s : State) (n v : Nat) : Option (Nat × Word) :=
  match n with
  | 0x010 =>
    if bit v 4 && isDense s.cur.cn then some (0x01, 0) else if s.portsTaken then some (0x07, s.openAddr) else none
  | 0x024 => if fld v 0 16 % 8 ≠ 0 || 0x10000 < fld v 0 16 + 128 then some (0x07, s.openAddr) else none
  | _ => none

/-- Writes a system register by its access codes (R5, R57): a register of the strand, of its core or of its partition. -/
def State.writeSys (s : State) (n : Nat) (v : Word) : State :=
  match n with
  | 0x000 => s.modMe fun u => { u with fctl := v &&& fctlMask }
  | 0x001 => s.modMe fun u => { u with flags := v &&& flagsMask }
  | 0x002 => s.modMe fun u => { u with rkey := v }
  | 0x003 => s.modMe fun u => { u with sid := v }
  | 0x004 => s.modMe fun u => { u with draw := v }
  | n => s.putSys n v

/-- WSYS (R426). -/
def execWsys (a : BitVec 5) (n : BitVec 12) (s : State) : Out :=
  let v := s.x a
  s.settle (match s.sysReg n.toNat with
    | none => .trap 0x01 0
    | some _ =>
      if (hasSro n.toNat || hasSrw n.toNat) && !s.me.sup then .trap 0x03 0
      else match s.refusesSys n.toNat v.toNat with
        | some (c, f) => .trap c f
        | none => .done (s.writeSys n.toNat v) 0)

/-! ### The writes with a row of their own -/

/-- A checked write of QCFG by the executing strand that is no word of its own. -/
def State.setQcfg (s : State) (v : Nat) : Out :=
  .next (match s.refusesSys 0x010 v with
    | some (c, f) => s.raise c f
    | none => s.writeQcfg v)

/-- QCFG_CLAIM (R235). -/
def execQcfgClaim (s : State) : Out := s.setQcfg 16
/-- QCFG_RELEASE (R235). -/
def execQcfgRelease (s : State) : Out := s.setQcfg 0
/-- QHCLR (R124). -/
def execQhclr (s : State) : Out := .next s.clearHist
/-- WDOG_WRITE (R276, R426). -/
def execWdogWrite (v : BitVec 64) (s : State) : Out := .next (s.writeWdog v.toNat)

end Sys2Proof.Machine
end

