-- ==== Sys2Proof/Machine/Schedule.lean ====
section
/-! DEFINITION. Which move comes next (log 6): the acts that a cycle makes due, the issue of each core (R36 to R38), the
pending acts of the other agents, and the end of a cycle (R35, R276, R297); and the place of an instruction for a first step. -/
namespace Sys2Proof.Machine

/-! ### Acts that are due in this cycle -/

/-- The act that performs request i at its home. -/
def netEvent (s : State) (i : Nat) (r : Req) : Option Instr :=
  match r.op with
  | .ship _ _ true => some (.shipApply i)
  | .rowReq dev table id ver tslot elem =>
    if s.isLocal dev then some (.rowRequest dev r.src tslot elem table id ver)
    else
      let k := s.choices
      some (.rowReply r.src tslot elem ([0, 0x07, 0x0F, 0x14].getD (Config.choice k % 4) 0) (Config.remoteRow k))
  | op =>
    if !s.canPerform i then none
    else match op with
      | .load .. | .loadAcq .. | .store .. | .amo .. | .cas .. | .cflush | .cinv | .pref | .ship .. | .move .. => some (.homeAccess i)
      | .loss .. => some (.lossNotice i)
      | .send m => if !r.home.far && s.portFull m.cn then none else some (.messageArrival i)
      | .task .. => some (.taskRequest i)
      | .taskAck .. => some (.taskAck i)
      | .decr _ => some (.decrement i)
      | .stepTag _ => some (.stepTagGrant i)
      | .tstep .. => some (.tstepRequest i)
      | .vpub .. | .vswitch _ | .setRef _ => some (.weightSetRequest i)
      | .row _ => some (.rowUpdate i)
      | .mcmd .. => some (.mcmdArrival i)
      | .rowReq .. => none

/-- Collects over the requests in flight, with their indices. -/
def collect (f : Nat → Req → Option Instr) (i : Nat) : List Req → List Instr
  | [] => []
  | r :: rs => (f i r).toList ++ collect f (i + 1) rs

/-- Whether request q, at index j, comes before a scheduled one that arrives in this cycle or the next (R219). -/
def State.hastened (s : State) (j : Nat) (q : Req) : Bool :=
  (List.range s.net.length).any fun i => j < i && match s.net[i]? with
    | some r => r.depart.isSome && (match r.due with | some c => c ≤ s.cycle + 1 | none => false) && q.leads r
    | none => false

/-- Due arrivals, then departures, then accesses of a core to its own scratchpad (R179, R226), and what its source sent before an
arrival of the next cycle, which keeps its cycle (R219). -/
def State.timedNet (s : State) : List Instr :=
  let arrival (i : Nat) (r : Req) : Option Instr := if s.arrivalDue r && !s.arrivalHeld i r then some (.scheduledArrival i) else none
  let departure (i : Nat) (r : Req) : Option Instr :=
    match r.depart, r.due, r.op with
    | _, _, .ship _ _ true => none
    | some c, none, _ => if c ≤ s.cycle then some (.scheduledDeparture i) else none
    | _, _, _ => none
  let own (i : Nat) (r : Req) : Option Instr :=
    match r.depart, r.due with
    | none, some _ => if s.canPerform i then netEvent s i r else none
    | _, _ => none
  let early (i : Nat) (r : Req) : Option Instr := if s.hastened i r && s.canPerform i then netEvent s i r else none
  collect arrival 0 s.net ++ collect departure 0 s.net ++ collect own 0 s.net ++ collect early 0 s.net

/-- The acts that are due at one core. -/
def State.timedCore (s : State) (cn : Nat) : List Instr :=
  (if s.phaseOver cn then [.phaseClose cn] else []) ++
  (if s.agingDue cn then [.taskAging cn] else []) ++
  (List.range 12).flatMap fun slot =>
    (if s.slotDue cn slot then [Instr.slotArm cn slot] else []) ++
    (if s.dividerDue cn slot then [.dividerRelease cn slot] else []) ++
    (if s.watchdogDue cn slot then [.watchdog cn slot] else [])

/-- The acts that are due in this cycle, in the order in which they take place. -/
def State.timed (s : State) : List Instr := s.timedNet ++ s.cores.flatMap fun c => s.timedCore c.1

/-! ### Pending acts of the other agents -/

/-- The pending acts at one core. -/
def State.coreEvents (s : State) (cn : Nat) : List Instr :=
  let c := s.core cn
  let strand (slot : Nat) : List Instr :=
    let ps := (c.strand slot).pend
    ((List.range ps.length).filter fun i => match ps[i]? with
      | some p => p.lands
      | none => false).map fun i => .registerWriteback cn slot i
  let ticket (n : Nat) : List Instr :=
    let t := c.ticket n
    if t.live && t.running && t.st == .pending && (t.engine != 2 || t.ending.isSome) then [.ticketElementEnd cn n] else []
  let engine (e : Nat) : List Instr :=
    if !s.engineBusy cn e && (s.nextGrant cn e).isSome then [.engineGrant cn e] else []
  (List.range 12).flatMap strand ++
  (if c.heldIn.isEmpty then [] else [.heldMessageAccept cn]) ++
  (if c.handlerEmpty && s.entriesOpen cn then
    (match c.waitingFault, c.waitingTicket with
      | some _, _ => [.faultEntry cn]
      | none, some _ => [.ticketFaultEntry cn]
      | none, none => if c.inbox.isEmpty then [] else [.handlerStart cn]) else []) ++
  (List.range 4).flatMap engine ++ (List.range 64).flatMap ticket ++
  (if c.rotating.any (s.shiftReady cn) then [.mrotShift cn] else [])

/-- The pending acts at the barrier network (R222, R229). -/
def State.domainEvents (s : State) : List Instr :=
  s.doms.flatMap fun d =>
    (if s.instanceFull (d.1 / 64) (d.1 % 64) then [.barrierComplete (d.1 / 64) (d.1 % 64)] else []) ++
    (if s.collReady (d.1 / 64) (d.1 % 64) then [.collectiveCombine (d.1 / 64) (d.1 % 64)] else [])

/-- The pending acts of partitions, Rosby and the fabric. -/
def State.deviceEvents (s : State) : List Instr :=
  (s.parts.flatMap fun p =>
    (if p.2.routload != [] then [Instr.routineLoadDone p.1] else []) ++
    (if p.2.domload != [] then [.domainLoadDone p.1] else []) ++
    (if s.canSave p.1 then [.gangStopSave p.1] else [])) ++
  (if s.dev.command.isSome then [.creationDone] else []) ++
  ((List.range s.moves.length).filter fun i => match s.moves[i]? with
    | some m => !s.pageHeld m.page
    | none => false).map (fun i => .pageMoveSwitch i) ++
  (s.dev.extents.filter fun e => e.releasing && !e.revoked).map fun e => .extentReleaseAck e.num

/-- The pending acts of the machine's other agents. -/
def State.events (s : State) : List Instr :=
  collect (netEvent s) 0 s.net ++ (s.cores.flatMap fun c => s.coreEvents c.1) ++ s.domainEvents ++ s.deviceEvents

/-! ### Issue and the end of a cycle -/

/-- Whether power capping removes the issue cycle (R38, R297; log 17). -/
def State.removed (s : State) : Bool := s.cycle * s.dev.throt / 64 < (s.cycle + 1) * s.dev.throt / 64

/-- A core issues, or does not, in this cycle (R36); strands whose waits have ended go on before. -/
def issueCore (x : Exec) (s : State) (cn : Nat) : Host.Outcome State Fault Refusal :=
  andThen (freeTurns x cn (List.range 12) { s with visited := cn + 1 }) fun s1 =>
    if s.removed then .next s1
    else match issueIn x cn (s.core cn).order s1 with
      | .next (_, t) => .next t
      | .fault f => .fault f
      | .refused r => .refused r

/-- Whether a strand is ready, as the watchdog judges it (R37, R276). -/
def strandReady (x : Exec) (s : State) (cn slot : Nat) : Bool :=
  match freeTurns x cn [slot] (s.modStrand cn slot fun t => { t with yielded := false }) with
  | .next t => (match attempt x t cn slot with
    | .next (b, _) => b
    | _ => false)
  | _ => false

/-- Whether a strand waits at step 3 of NEXT (R44). -/
def State.atNext (s : State) (cn slot : Nat) : Bool :=
  let c := s.core cn
  let t := c.strand slot
  slot == 0 && t.holds.any (fun h => h.2 == .restart) && c.noHelpers &&
    !((c.attached 0).any fun n => (c.ticket n).st == .pending) &&
    match (s.fetchAt cn slot t.pc t.jumped).1 with
    | .words [w] => (match instrOf w with
      | .next _ => true
      | _ => false)
    | _ => false

/-- Whether the cycle counts for the watchdog of a strand that has not issued in it (R276). -/
def countsCycle (x : Exec) (s : State) (cn slot : Nat) : Bool :=
  let t := s.strand cn slot
  t.counts && s.mayIssue cn slot && !(t.holds.any fun h => h.2 == .idle) && !s.atNext cn slot && !strandReady x s cn slot

/-- The slot of a core that has issued in this cycle. -/
def State.issuedSlot (s : State) (cn : Nat) : Option Nat :=
  if s.issued.contains cn then some (if (s.core cn).handlerLast then 11 else (s.core cn).lastP) else none

/-- The end of a cycle at one core: the watchdog counts, a YIELD's turn passes, retired tickets free (R35, R207, R276). -/
def endCore (x : Exec) (s : State) (cn : Nat) : State :=
  let slot := s.issuedSlot cn
  let one (t : State) (k : Nat) : State :=
    if slot = some k then t
    else
      let c := countsCycle x s cn k
      t.modStrand cn k fun u => { u with yielded := false, notReady := u.notReady + b2n c }
  let t := (List.range 12).foldl one s
  (t.modCore cn fun c => { c with handlerLast := c.handlerLast && slot.isSome }).sweepTickets cn

/-- The acts at the end of a period of 1,000,000 cycles (R162, R292, R297). -/
def State.endPeriod (s : State) : State :=
  if s.periodEnd then (((s.hotPagePeriod).errorCountReport 0).errorCountReport 1).throttleUpdate else s

/-- The end of a cycle. -/
def endCycle (x : Exec) (s : State) : State :=
  let t := ((s.cores.map (·.1)).foldl (endCore x) s).endPeriod
  { t with cycle := t.cycle + 1, issued := [], visited := 0 }

/-! ### The next move -/

/-- A planned move: a strand's issue, an act of an agent or of the outside world, or the end of the cycle. -/
def runMove (x : Exec) (m : Move) (s : State) : Host.Outcome State Fault Refusal :=
  match m with
  | .act i => x i s
  | .outside a => .next (s.outside a)
  | .endCycle => .next (endCycle x s)
  | .issue cn slot =>
    match attempt x s cn slot with
    | .next (took, t) => .next (if took then t.markIssued cn slot else t)
    | .fault f => .fault f
    | .refused r => .refused r

/-- The move that is no free choice, once in 4,096 of those among pending acts, so that none of them is put off for ever (R50; DESIGN
CHOICE, log 90): by turns the end of the cycle, and a barrier instance at which every member has arrived or else the pending acts one
after the other. -/
def State.fairMove (s : State) : Option (Option Instr) :=
  if s.chosen % 4096 ≠ 4095 then none
  else if s.chosen / 4096 % 2 = 1 then some none
  else
    let full := s.domainEvents.filter fun i => match i with
      | .barrierComplete .. => true
      | _ => false
    let es := if full.isEmpty then s.events else full
    some es[s.chosen / 8192 % es.length]?

/-- A free choice among the pending acts and the end of the cycle, but for the moves that keep it fair; with none pending the cycle
ends. -/
def chooseMove (x : Exec) (s : State) : Host.Outcome State Fault Refusal :=
  match s.events with
  | [] => .next (endCycle x s)
  | es =>
    let (k, t) := s.choose (es.length + 1)
    let u := { t with chosen := s.chosen + 1 }
    match s.fairMove.getD es[k]? with
    | some i => x i u
    | none => .next (endCycle x u)

/-- One move of a device with power: the planned moves, then what the cycle makes due, then each core's issue, then the other
agents. -/
def runPowered (x : Exec) (s : State) : Host.Outcome State Fault Refusal :=
  match s.agenda with
  | m :: r => runMove x m { s with agenda := r }
  | [] =>
    match s.timed with
    | i :: _ => x i s
    | [] =>
      match s.cores.find? fun c => s.visited ≤ c.1 with
      | some c => issueCore x s c.1
      | none => chooseMove x s

/-- One move: without power only POWER_ON (R295, R297). -/
def advance (x : Exec) (s : State) : Host.Outcome State Fault Refusal :=
  if s.powered then runPowered x s
  else match s.agenda with
    | .act .powerOn :: r => x .powerOn { s with agenda := r }
    | _ => .fault .unpowered

/-! ### The place of a first instruction (log 28) -/

/-- The strand that runs the placed instruction: slot 0 of the dense sequencer 0x8000, in supervisor mode. -/
def placedCore : Nat := 0x8000
/-- Its PC, and the tables that map it: a root entry and a 64 GiB leaf at physical address 0. -/
def placedPc : Nat := 0x100000
def placedRoot : Nat := 0x200000
def placedTable : Nat := 0x210000
/-- A table pointer: V. -/
def placedPointer : Nat := 1 + placedTable / 2 ^ 16 * 2 ^ 8
/-- A committed leaf of level 1 with R, W, X and U. -/
def placedLeaf : Nat := 1 + 2 * 2 + 2 ^ 48 + 2 ^ 50 + 2 ^ 51 + 2 ^ 52 + 2 ^ 53

/-- The strand of the placed instruction. -/
def Strand.placed (t : Strand) : Strand :=
  { t with
    live := true, pc := BitVec.ofNat 56 placedPc, sup := true, susp := none, refusal := none, ordHeld := [], inEntry := false, holds := [], await := none
    pend := [], rep := none, rest := [], late := [], mid := none, fetched := [], yielded := false, jumped := false }

/-- The partition that holds the placed strand's core. -/
def Part.placed (x : Part) : Part :=
  { x with
    key := if x.key = 0 then 1 else x.key
    clusters := if x.clusters.isEmpty then [0] else x.clusters
    dense := insertNat 0 x.dense
    ptroot := BitVec.ofNat 64 placedRoot
    status := .running
    stop := false
    saved := false }

/-- The state with an instruction word where the next step fetches. -/
def State.placeWord (s : State) (w : Nat) : State :=
  let p := (s.partOf? placedCore).getD 0
  let s1 := (((s.hostWrite placedRoot (leBytes 8 placedPointer)).hostWrite placedTable (leBytes 8 placedLeaf)).hostWrite placedPc
    (leBytes 4 w)).setPart p ((s.part p).placed)
  { s1.modStrand placedCore 0 Strand.placed |>.modCore placedCore fun c => { c with microTlb := [] } with
    powered := true
    clusterTlb := delKey s1.clusterTlb (tlbKey placedCore)
    agenda := .issue placedCore 0 :: s1.agenda }

end Sys2Proof.Machine
end

