-- ==== Sys2Proof/Machine/Dispatch.lean ====
section
/-! DEFINITION. The dispatch: one arm per constructor of Instr, each one call of its meaning. -/
namespace Sys2Proof.Machine

/-- The meaning of an instruction, or of an act of the machine, in a state. -/
def exec (i : Instr) (s : State) : Host.Outcome State Fault Refusal :=
  match i with
  | .acvt _ a t v => Sys2Proof.Machine.execAcvt a t v s
  | .add _ d a b w => Sys2Proof.Machine.execAdd d a b w s
  | .addImm _ d a num => Sys2Proof.Machine.execAddImm d a num s
  | .and _ d a b w => Sys2Proof.Machine.execAnd d a b w s
  | .andImm _ d a num => Sys2Proof.Machine.execAndImm d a num s
  | .andn _ d a b w => Sys2Proof.Machine.execAndn d a b w s
  | .addpc _ d num => Sys2Proof.Machine.execAddpc d num s
  | .adopt _ d a => Sys2Proof.Machine.execAdopt d a s
  | .alloc _ d a => Sys2Proof.Machine.execAlloc d a s
  | .aload k d a t c => Sys2Proof.Machine.execAload k d a t c s
  | .astore k d a t c => Sys2Proof.Machine.execAstore k d a t c s
  | .amo _ d a z o r g f => Sys2Proof.Machine.execAmo d a z o r g f s
  | .azero _ a => Sys2Proof.Machine.execAzero a s
  | .bar _ a => Sys2Proof.Machine.execBar a s
  | .barv _ d a b o => Sys2Proof.Machine.execBarv d a b o s
  | .br _ num => Sys2Proof.Machine.execBr num s
  | .brp _ p sel num => Sys2Proof.Machine.execBrp p sel num s
  | .call _ num => Sys2Proof.Machine.execCall num s
  | .cancel _ a => Sys2Proof.Machine.execCancel a s
  | .cas _ d a z r g f => Sys2Proof.Machine.execCas d a z r g f s
  | .cflush _ a o => Sys2Proof.Machine.execCflush a o s
  | .cinv _ a o => Sys2Proof.Machine.execCinv a o s
  | .clz _ d a w => Sys2Proof.Machine.execClz d a w s
  | .ctz _ d a w => Sys2Proof.Machine.execCtz d a w s
  | .cmp _ d a b n w c => Sys2Proof.Machine.execCmp d a b n w c s
  | .cmpImm _ d a c n num => Sys2Proof.Machine.execCmpImm d a c n num s
  | .coll k d a o t c => Sys2Proof.Machine.execColl k d a o t c s
  | .commit _ a => Sys2Proof.Machine.execCommit a s
  | .decommit _ a => Sys2Proof.Machine.execDecommit a s
  | .copy k d a t c => Sys2Proof.Machine.execCopy k d a t c s
  | .shuffle k d a t c => Sys2Proof.Machine.execShuffle k d a t c s
  | .ctrlv _ q a => Sys2Proof.Machine.execCtrlv q a s
  | .ctxsv => Sys2Proof.Machine.execCtxsv s
  | .ctxld => Sys2Proof.Machine.execCtxld s
  | .decr a => Sys2Proof.Machine.execDecr a s
  | .detach _ a => Sys2Proof.Machine.execDetach a s
  | .div _ d a b n w => Sys2Proof.Machine.execDiv d a b n w s
  | .exit => Sys2Proof.Machine.execExit s
  | .extr _ d a sel l p => Sys2Proof.Machine.execExtr d a sel l p s
  | .ins _ d a l p => Sys2Proof.Machine.execIns d a l p s
  | .fence _ t r q sel => Sys2Proof.Machine.execFence t r q sel s
  | .free _ a b => Sys2Proof.Machine.execFree a b s
  | .gather k d a f sel t c => Sys2Proof.Machine.execGather k d a f sel t c s
  | .gatherp k d a m sel t c => Sys2Proof.Machine.execGatherp k d a m sel t c s
  | .get k d a t c => Sys2Proof.Machine.execGet k d a t c s
  | .put k d a t c => Sys2Proof.Machine.execPut k d a t c s
  | .idle => Sys2Proof.Machine.execIdle s
  | .idsort _ d a b t => Sys2Proof.Machine.execIdsort d a b t s
  | .merge _ d a b t => Sys2Proof.Machine.execMerge d a b t s
  | .join a => Sys2Proof.Machine.execJoin a s
  | .jr _ d a => Sys2Proof.Machine.execJr d a s
  | .ld _ d a z h o => Sys2Proof.Machine.execLd d a z h o s
  | .lda _ d a z sel o => Sys2Proof.Machine.execLda d a z sel o s
  | .ldv _ d a h o => Sys2Proof.Machine.execLdv d a h o s
  | .lhi _ d h num => Sys2Proof.Machine.execLhi d h num s
  | .loop _ d o => Sys2Proof.Machine.execLoop d o s
  | .min _ d a b n w => Sys2Proof.Machine.execMin d a b n w s
  | .max _ d a b n w => Sys2Proof.Machine.execMax d a b n w s
  | .mcmd k d a b c => Sys2Proof.Machine.execMcmd k d a b c s
  | .mfetch k d a c => Sys2Proof.Machine.execMfetch k d a c s
  | .mmul k d a c => Sys2Proof.Machine.execMmul k d a c s
  | .mmuls k d a c => Sys2Proof.Machine.execMmuls k d a c s
  | .modeExposed => Sys2Proof.Machine.execModeExposed s
  | .modeScoreboard => Sys2Proof.Machine.execModeScoreboard s
  | .mrot k d a c => Sys2Proof.Machine.execMrot k d a c s
  | .mul _ d a b w => Sys2Proof.Machine.execMul d a b w s
  | .mulh _ d a b n w => Sys2Proof.Machine.execMulh d a b n w s
  | .next d => Sys2Proof.Machine.execNext d s
  | .nop => Sys2Proof.Machine.execNop s
  | .sub _ d a b w => Sys2Proof.Machine.execSub d a b w s
  | .rem _ d a b n w => Sys2Proof.Machine.execRem d a b n w s
  | .or _ d a b w => Sys2Proof.Machine.execOr d a b w s
  | .orImm _ d a num => Sys2Proof.Machine.execOrImm d a num s
  | .xor _ d a b w => Sys2Proof.Machine.execXor d a b w s
  | .xorImm _ d a num => Sys2Proof.Machine.execXorImm d a num s
  | .shl _ d a b w => Sys2Proof.Machine.execShl d a b w s
  | .shr _ d a b w => Sys2Proof.Machine.execShr d a b w s
  | .shra _ d a b w => Sys2Proof.Machine.execShra d a b w s
  | .rot _ d a b w => Sys2Proof.Machine.execRot d a b w s
  | .shlImm _ d a w c => Sys2Proof.Machine.execShlImm d a w c s
  | .shrImm _ d a w c => Sys2Proof.Machine.execShrImm d a w c s
  | .shraImm _ d a w c => Sys2Proof.Machine.execShraImm d a w c s
  | .rotImm _ d a w c => Sys2Proof.Machine.execRotImm d a w c s
  | .popc _ d a w => Sys2Proof.Machine.execPopc d a w s
  | .sel _ d a b w p => Sys2Proof.Machine.execSel d a b w p s
  | .plog _ d a b t => Sys2Proof.Machine.execPlog d a b t s
  | .pmov _ d a m => Sys2Proof.Machine.execPmov d a m s
  | .pcnt _ d a => Sys2Proof.Machine.execPcnt d a s
  | .pset _ d a => Sys2Proof.Machine.execPset d a s
  | .pref _ a o => Sys2Proof.Machine.execPref a o s
  | .qhist _ a p t => Sys2Proof.Machine.execQhist a p t s
  | .qscale _ d a t => Sys2Proof.Machine.execQscale d a t s
  | .rand _ d => Sys2Proof.Machine.execRand d s
  | .rskip _ a => Sys2Proof.Machine.execRskip a s
  | .rstrm _ a b => Sys2Proof.Machine.execRstrm a b s
  | .rep m a sel n => Sys2Proof.Machine.execRep m a sel n s
  | .rsys _ d sel => Sys2Proof.Machine.execRsys d sel s
  | .wsys _ a sel => Sys2Proof.Machine.execWsys a sel s
  | .rte => Sys2Proof.Machine.execRte s
  | .trap a => Sys2Proof.Machine.execTrap a s
  | .sample _ d a t => Sys2Proof.Machine.execSample d a t s
  | .scatter k d a sel t c => Sys2Proof.Machine.execScatter k d a sel t c s
  | .scatadd k d a sel t c => Sys2Proof.Machine.execScatadd k d a sel t c s
  | .send _ a b n => Sys2Proof.Machine.execSend a b n s
  | .ship _ a b o => Sys2Proof.Machine.execShip a b o s
  | .slot _ n => Sys2Proof.Machine.execSlot n s
  | .spawn d a b => Sys2Proof.Machine.execSpawn d a b s
  | .st _ d a z h o => Sys2Proof.Machine.execSt d a z h o s
  | .stl _ d a z sel o => Sys2Proof.Machine.execStl d a z sel o s
  | .stv _ d a h o => Sys2Proof.Machine.execStv d a h o s
  | .tdef _ n a b => Sys2Proof.Machine.execTdef n a b s
  | .tacq _ n => Sys2Proof.Machine.execTacq n s
  | .trel _ n => Sys2Proof.Machine.execTrel n s
  | .trelFill _ n => Sys2Proof.Machine.execTrelFill n s
  | .tstat _ d n => Sys2Proof.Machine.execTstat d n s
  | .task d a b => Sys2Proof.Machine.execTask d a b s
  | .tbind _ n a => Sys2Proof.Machine.execTbind n a s
  | .tstep _ n => Sys2Proof.Machine.execTstep n s
  | .vpub _ a b => Sys2Proof.Machine.execVpub a b s
  | .vswitch _ a => Sys2Proof.Machine.execVswitch a s
  | .waitt _ a => Sys2Proof.Machine.execWaitt a s
  | .waittNt _ d a => Sys2Proof.Machine.execWaittNt d a s
  | .testt _ d a => Sys2Proof.Machine.execTestt d a s
  | .tinfo _ d a sel => Sys2Proof.Machine.execTinfo d a sel s
  | .tinfoResume _ d a => Sys2Proof.Machine.execTinfoResume d a s
  | .tlbi _ a g sel => Sys2Proof.Machine.execTlbi a g sel s
  | .vadd _ d a b p t => Sys2Proof.Machine.execVadd d a b p t s
  | .vsub _ d a b p t => Sys2Proof.Machine.execVsub d a b p t s
  | .vmul _ d a b p t => Sys2Proof.Machine.execVmul d a b p t s
  | .vmin _ d a b p t => Sys2Proof.Machine.execVmin d a b p t s
  | .vmax _ d a b p t => Sys2Proof.Machine.execVmax d a b p t s
  | .vabs _ d a p t => Sys2Proof.Machine.execVabs d a p t s
  | .vneg _ d a p t => Sys2Proof.Machine.execVneg d a p t s
  | .vlogic _ d a b p o => Sys2Proof.Machine.execVlogic d a b p o s
  | .vsh _ d a b p t o => Sys2Proof.Machine.execVsh d a b p t o s
  | .vcmp _ d a b p t c => Sys2Proof.Machine.execVcmp d a b p t c s
  | .vsel _ d a b p t => Sys2Proof.Machine.execVsel d a b p t s
  | .vshuf _ d a b => Sys2Proof.Machine.execVshuf d a b s
  | .vbcast _ d a p t => Sys2Proof.Machine.execVbcast d a p t s
  | .vext _ d a l t => Sys2Proof.Machine.execVext d a l t s
  | .vins _ d a l t => Sys2Proof.Machine.execVins d a l t s
  | .vcvt _ d a sel c t p => Sys2Proof.Machine.execVcvt d a sel c t p s
  | .vfma _ d a b c t p => Sys2Proof.Machine.execVfma d a b c t p s
  | .vdot _ d a b t p => Sys2Proof.Machine.execVdot d a b t p s
  | .vmaci _ d a b w t p => Sys2Proof.Machine.execVmaci d a b w t p s
  | .vred _ d a o t => Sys2Proof.Machine.execVred d a o t s
  | .vrcp _ d a p t => Sys2Proof.Machine.execVrcp d a p t s
  | .vrsq _ d a p t => Sys2Proof.Machine.execVrsq d a p t s
  | .vexp2 _ d a p t => Sys2Proof.Machine.execVexp2 d a p t s
  | .vlog2 _ d a p t => Sys2Proof.Machine.execVlog2 d a p t s
  | .yield => Sys2Proof.Machine.execYield s
  | .qcfgClaim => Sys2Proof.Machine.execQcfgClaim s
  | .qcfgRelease => Sys2Proof.Machine.execQcfgRelease s
  | .qhclr => Sys2Proof.Machine.execQhclr s
  | .wdogWrite v => Sys2Proof.Machine.execWdogWrite v s
  | .registerWrite page offset v => Sys2Proof.Machine.execRegisterWrite page offset v s
  | .lnotify p v => Sys2Proof.Machine.execLnotify p v s
  | .lcons p v => Sys2Proof.Machine.execLcons p v s
  | .routbase p cn v => Sys2Proof.Machine.execRoutbase p cn v s
  | .routineLoadDone p => Sys2Proof.Machine.execRoutineLoadDone p s
  | .domload p cn v => Sys2Proof.Machine.execDomload p cn v s
  | .domainLoadDone p => Sys2Proof.Machine.execDomainLoadDone p s
  | .gangStop p => Sys2Proof.Machine.execGangStop p s
  | .gangStopSave p => Sys2Proof.Machine.execGangStopSave p s
  | .restore p => Sys2Proof.Machine.execRestore p s
  | .reissue p => Sys2Proof.Machine.execReissue p s
  | .eqcons page v => Sys2Proof.Machine.execEqcons page v s
  | .create p => Sys2Proof.Machine.execCreate p s
  | .creationDone => Sys2Proof.Machine.execCreationDone s
  | .destroy p => Sys2Proof.Machine.execDestroy p s
  | .pcap v => Sys2Proof.Machine.execPcap v s
  | .throttleUpdate => Sys2Proof.Machine.execThrottleUpdate s
  | .powerOn => Sys2Proof.Machine.execPowerOn s
  | .firmwareUpdate image => Sys2Proof.Machine.execFirmwareUpdate image s
  | .spdmMeasurements => Sys2Proof.Machine.execSpdmMeasurements s
  | .deviceNumber n => Sys2Proof.Machine.execDeviceNumber n s
  | .extentRelease e => Sys2Proof.Machine.execExtentRelease e s
  | .extentReleaseAck e => Sys2Proof.Machine.execExtentReleaseAck e s
  | .forcedRevocation e => Sys2Proof.Machine.execForcedRevocation e s
  | .rowRequest dev cn tslot elem table id ver => Sys2Proof.Machine.execRowRequest dev cn tslot elem table id ver s
  | .rowReply cn tslot elem cause row => Sys2Proof.Machine.execRowReply cn tslot elem cause row s
  | .messageArrival num => Sys2Proof.Machine.execMessageArrival num s
  | .heldMessageAccept cn => Sys2Proof.Machine.execHeldMessageAccept cn s
  | .handlerStart cn => Sys2Proof.Machine.execHandlerStart cn s
  | .faultEntry cn => Sys2Proof.Machine.execFaultEntry cn s
  | .ticketFaultEntry cn => Sys2Proof.Machine.execTicketFaultEntry cn s
  | .taskRequest num => Sys2Proof.Machine.execTaskRequest num s
  | .taskAck num => Sys2Proof.Machine.execTaskAck num s
  | .decrement num => Sys2Proof.Machine.execDecrement num s
  | .taskAging cn => Sys2Proof.Machine.execTaskAging cn s
  | .engineGrant cn eng => Sys2Proof.Machine.execEngineGrant cn eng s
  | .ticketElementEnd cn tslot => Sys2Proof.Machine.execTicketElementEnd cn tslot s
  | .collectiveCombine die dom => Sys2Proof.Machine.execCollectiveCombine die dom s
  | .mrotShift cn => Sys2Proof.Machine.execMrotShift cn s
  | .mcmdArrival num => Sys2Proof.Machine.execMcmdArrival num s
  | .stepTagGrant num => Sys2Proof.Machine.execStepTagGrant num s
  | .tstepRequest num => Sys2Proof.Machine.execTstepRequest num s
  | .rowUpdate num => Sys2Proof.Machine.execRowUpdate num s
  | .shipApply num => Sys2Proof.Machine.execShipApply num s
  | .weightSetRequest num => Sys2Proof.Machine.execWeightSetRequest num s
  | .homeAccess num => Sys2Proof.Machine.execHomeAccess num s
  | .lossNotice num => Sys2Proof.Machine.execLossNotice num s
  | .registerWriteback cn slot num => Sys2Proof.Machine.execRegisterWriteback cn slot num s
  | .dividerRelease cn slot => Sys2Proof.Machine.execDividerRelease cn slot s
  | .barrierComplete die dom => Sys2Proof.Machine.execBarrierComplete die dom s
  | .phaseClose cn => Sys2Proof.Machine.execPhaseClose cn s
  | .scheduledDeparture num => Sys2Proof.Machine.execScheduledDeparture num s
  | .scheduledArrival num => Sys2Proof.Machine.execScheduledArrival num s
  | .hotPagePeriod => Sys2Proof.Machine.execHotPagePeriod s
  | .pageMoveSwitch num => Sys2Proof.Machine.execPageMoveSwitch num s
  | .watchdog cn slot => Sys2Proof.Machine.execWatchdog cn slot s
  | .uncorrectableError kind loc => Sys2Proof.Machine.execUncorrectableError kind loc s
  | .correctedError die => Sys2Proof.Machine.execCorrectedError die s
  | .errorCountReport die => Sys2Proof.Machine.execErrorCountReport die s
  | .illegalInstruction w => Sys2Proof.Machine.execIllegalInstruction w s
  | .instructionFetchFault => Sys2Proof.Machine.execInstructionFetchFault s
  | .extentGrant e p dev => Sys2Proof.Machine.execExtentGrant e p dev s
  | .powerLoss => Sys2Proof.Machine.execPowerLoss s
  | .slotArm cn slot => Sys2Proof.Machine.execSlotArm cn slot s

end Sys2Proof.Machine
end

