-- ==== Sys2Proof/Machine/Step.lean ====
section
/-! DEFINITION. One step of the machine (log 6), and the place of an instruction for a first step (log 28). -/
namespace Sys2Proof.Machine

/-- One move of the machine: a next state, or the fault of a device without power. -/
def step (s : State) : Host.Outcome State Fault Refusal := advance exec s

/-- The state with an instruction of the opcode table where the next step fetches it: one little-endian word. -/
def State.withFetchWord (s : State) (nbits w : Nat) : State := s.placeWord (w % 2 ^ nbits)

end Sys2Proof.Machine
end

