-- ==== Sys2Proof/Safety.lean ====
section
/-! DEFINITION. The terms of the claims: what counts as a safe run, the plain situations in which an instruction completes, and
the state that a completed bundle leaves. -/
namespace Sys2Proof.Machine

/-! ### Safe runs -/

/-- A step that goes on: a next state, neither a fault nor a refusal. -/
def Continues (s : State) : Prop := ∃ t, step s = .next t

/-- The partitions that are stopped by a fatal fault (R277). -/
def State.stoppedParts (s : State) : List Nat := (s.parts.filter fun p => p.2.status == .fatal).map (·.1)

/-- A safe step: it goes on, and no partition becomes fatally stopped in it. -/
def SafeStep (s : State) : Prop := ∃ t, step s = .next t ∧ ∀ p ∈ t.stoppedParts, p ∈ s.stoppedParts

/-- A safe run of k steps. -/
def SafeRun : Nat → State → Prop
  | 0, _ => True
  | k + 1, s => ∃ t, step s = .next t ∧ (∀ p ∈ t.stoppedParts, p ∈ s.stoppedParts) ∧ SafeRun k t

/-! ### The situation of a word -/

/-- The executing word is the whole bundle of a strand that is not suspended, so that no bundle of it is half issued (R59, R61) and
no request in flight is the bundle's own, outside an exposed region (R257). -/
def State.alone (s : State) : Bool :=
  !s.cur.multi && !s.cur.spread && s.cur.later == (0, 0) && s.cur.src.isNone && s.cur.target.isNone && s.cur.len == 1 && s.cur.pc == s.cur.bundle &&
    decide (s.cur.slot < 12) && s.me.susp.isNone && s.me.mid.isNone && !s.myCore.regs.exposed && !s.me.counted &&
    s.net.all fun r => decide (r.rid < s.cur.since)

/-- No vector field names a neighbour port: the strand does not hold the claim, or its core is a dense sequencer (R56). -/
def State.portless (s : State) : Bool := isDense s.cur.cn || s.myCore.regs.claim != some s.cur.slot

/-! ### The state after a bundle -/

/-- The state after a bundle that completes (R61, R108): `t` holds the effects of its words, the raised flags are sticky, no
word of it waits any more, and the strand continues at `pc`. -/
def State.continuesAt (t : State) (flags : Nat) (pc : Addr) (jumped : Bool) : State :=
  (t.modMe fun u => { u with
    flags := u.flags ||| BitVec.ofNat 64 flags, holds := [], pc := pc, jumped := jumped }).setEnding .done

/-- The state after a bundle that completes without a transfer and without flags: the strand continues at the next word. -/
def State.thenNext (t : State) : State := t.continuesAt 0 (t.cur.bundle + 4) false

/-- The state after a control transfer (R67): the strand continues at the target. -/
def State.jumpsTo (t : State) (a : Addr) : State := (t.jump a).continuesAt 0 a true

/-- The state after a word that raises a cause in a strand other than the handler (R271 to R273): the strand is suspended with
the cause, FADDR and the bundle's address, and resumes at `resume`, where it keeps the place it was reached from if that is the
bundle again (R60); the tiles that its waiting word had taken are given back (R355); nothing else changes. -/
def State.suspendedAt (s : State) (cause : Nat) (faddr : Word) (resume : Addr) : State :=
  ((s.modMyCore fun c => c.giveTiles s.cur.slot).modMe fun t => { t with
    susp := some { cause := cause, faddr := faddr, fpc := s.cur.bundle }, pc := resume, holds := []
    jumped := t.jumped && resume == s.cur.bundle }).setEnding (.trap cause faddr)

/-- The state after a word whose page walk met a poisoned line (R285): the partition stops on cause 0x13, whose record has the
line's storage address, and nothing else of the word takes effect. -/
def State.stoppedAt (s : State) (cause : Nat) (faddr : Word) : State :=
  (s.fatalStop (s.partNo s.cur.cn) 0x13 s.cur.cn s.cur.slot s.cur.bundle (cause / 2 ^ 8)).setEnding (.trap cause faddr)

/-- The state after a word whose address does not translate (R271, R285): its cause, or its wait for a page-table line that the line's
home holds (R165). -/
def State.refusedAt (s : State) (cause : Nat) (faddr : Word) : State :=
  if cause = heldCause then s.setEnding .waiting
  else if cause % 2 ^ 8 = 0x13 then s.stoppedAt cause faddr else s.suspendedAt cause faddr (s.cur.resume cause)

/-- The state after a word that writes one scalar register and nothing else; s0 keeps its zero (R55). -/
def State.wroteX (s : State) (d : BitVec 5) (v : Word) : State := (s.modMe fun u => u.setX d.toNat v).thenNext

/-- The state after a word that writes one predicate register and nothing else. -/
def State.wroteP (s : State) (d : BitVec 5) (v : PWord) : State := (s.modMe fun u => u.setP d.toNat v).thenNext

/-- The state after a word that writes one vector register and raises flags (R104). -/
def State.wroteV (s : State) (d : BitVec 4) (v : VWord) (flags : Nat) : State :=
  (s.modMe fun u => u.setV d.toNat v).continuesAt flags (s.cur.bundle + 4) false

/-- The low 32 bits of a word, sign-extended: the result under .w (R315). -/
def low32 (v : Word) : Word := (v.setWidth 32).signExtend 64

/-- What a word keeps that writes only the scalar registers named and its own strand's control: the other registers of the strand,
its status and generator registers, the system registers of its core, every other core, and memory. -/
def State.keeps (s t : State) (xs : List (BitVec 5)) : Prop :=
  (∀ r, r ∉ xs → t.me.getX r.toNat = s.me.getX r.toNat) ∧ t.me.v = s.me.v ∧ t.me.p = s.me.p ∧ t.me.fctl = s.me.fctl ∧
  t.me.flags = s.me.flags ∧ t.me.rkey = s.me.rkey ∧ t.me.sid = s.me.sid ∧ t.me.draw = s.me.draw ∧ t.me.sup = s.me.sup ∧
  t.myCore.regs = s.myCore.regs ∧ (∀ k, k ≠ s.cur.cn → t.core k = s.core k) ∧ t.mem = s.mem

/-! ### Requests of a word -/

/-- The request of the executing word to a home, with the next request number. -/
def State.wordRequest (s : State) (h : Home) (op : ReqOp) (va : Word) (og depart due : Option Nat) : Req :=
  { rid := s.nextRid, src := s.cur.cn, slot := s.cur.slot, part := s.partNo s.cur.cn, sup := s.me.sup, va := va
    fpc := s.cur.bundle, home := h, op := op, og := og, depart := depart, due := due }

/-- The state with one more request in flight. -/
def State.asks (s : State) (r : Req) : State := { s with net := s.net ++ [r], nextRid := s.nextRid + 1 }

/-- An access to a home that leaves at once: at the core's own scratchpad it is due in the next cycle (R179). -/
def State.accesses (s : State) (h : Home) (op : ReqOp) (va : Word) (og : Option Nat) : State :=
  s.asks (s.wordRequest h op va og none (if h.own s.cur.cn then some (s.cycle + 1) else none))

/-- Registers that take the reply to a request. -/
def State.promises (s : State) (rid : Nat) (rs : List Reg) : State :=
  s.modMe fun t => { t with pend := t.pend ++ rs.map fun r => { reg := r, rid := rid, val := none, turns := none } }

/-! ### The issue of a ticket -/

/-- The condition under which a word issues a ticket into slot n (R145, R204, R206): the lowest free slot, the destination tile
EMPTY and no source, every source READY and, where it drains, without readers, and no CTXSV waiting. -/
def State.canIssue (t : State) (n : Nat) (dst : Option Nat) (srcs : List Nat) (drain : Bool) : Prop :=
  t.myCore.freeSlot = some n ∧ t.ticketsHeld = false ∧
  (∀ j, dst = some j → j ∉ srcs ∧ (t.myCore.tile j).st = .empty) ∧
  ∀ j ∈ srcs, (t.myCore.tile j).st = .ready ∧ (drain = true → (t.myCore.tile j).readers = 0)

/-- What the issue of a ticket for the word i into slot n does but for its tiles (R204, R205): the ticket, its handle in X[d] and the
requests sent; other tickets, registers and memory stay. `t` is the state before it. -/
def State.tickets (t u : State) (n : Nat) (d : BitVec 5) (i : Instr) (xa : Word) (dst : Option Nat) (sent : List Req) : Prop :=
  let x := u.myCore.ticket n
  let gen := if 1023 ≤ (t.myCore.ticket n).gen then 1 else (t.myCore.ticket n).gen + 1
  x.live = true ∧ x.st = .pending ∧ x.running = false ∧ x.parked = false ∧ x.gen = gen ∧ x.word = encode i ∧
  x.owner = t.cur.slot ∧ x.issuer = t.cur.slot ∧ x.past = false ∧ x.pc = t.cur.bundle ∧ x.sup = t.me.sup ∧ x.xa = xa ∧ x.elem = 0 ∧
  x.dtile = dst ∧ u.me.getX d.toNat = (if d = 0 then 0 else BitVec.ofNat 64 (gen * 64 + n)) ∧
  t.keeps u [d] ∧ u.me.pc = t.cur.bundle + 4 ∧
  (∀ k, k ≠ n → u.myCore.ticket k = t.myCore.ticket k) ∧ u.l2 = t.l2 ∧ u.net = t.net ++ sent

/-- What the issue of a ticket does with the tiles that it takes at once (R145). -/
def State.issues (t u : State) (n : Nat) (d : BitVec 5) (i : Instr) (xa : Word) (dst : Option Nat) (srcs : List Nat)
    (drain : Bool) (sent : List Req) : Prop :=
  t.tickets u n d i xa dst sent ∧
  (∀ j < 32, (u.myCore.tile j).st =
    if dst = some j then .filling else if drain = true ∧ j ∈ srcs then .draining else (t.myCore.tile j).st) ∧
  (∀ j < 32, (u.myCore.tile j).readers = (t.myCore.tile j).readers + if drain = false ∧ j ∈ srcs then 1 else 0)

end Sys2Proof.Machine
end

