-- ==== Sys2Proof/Certificates/Slice0/Obligations.lean ====
section
/-! DEFINITION. The statements for the provers, family by family. A statement of a word takes a state in which the word is the whole
bundle of a strand that is not suspended (`State.alone`); its conclusion is the next state, so what it does not name is unchanged.
What a log entry chose is named beside the clause that rests on it. -/

open Sys2Proof Sys2Proof.Machine

/-! ### Encoding (R79, R80, R315, R384 to R387, R400 to R428) -/

/-- R79: a word of an illegal or reserved major is no instruction and raises cause 0x01 without another effect; the all-zero word and
0x8000_0000 are of major 0; every other major has words that are instructions. -/
def Obligations.IllegalMajors : Prop :=
  let majors : List Nat := [0x00, 0x3F, 0x17, 0x2F, 0x37, 0x3D, 0x3E]
  let major (w : IWord) : Nat := fld w.toNat 25 6
  (∀ w, major w ∈ majors → (∀ i, decodeWord w ≠ .ok i) ∧
    ∀ s : State, s.alone = true → s.cur.slot ≠ 11 → exec (instrOf w) s = .next (s.suspendedAt 0x01 0 s.cur.bundle)) ∧
  major 0 = 0 ∧ major 0x80000000 = 0 ∧ ∀ m < 64, m ∉ majors → ∃ w i, major w = m ∧ decodeWord w = .ok i

/-- The worked words of the spec's instruction reference decode to the instructions that it gives for them. -/
def Obligations.DecodeWords : Prop :=
  decodeWord 0x5818_4400 = .ok (.tdef 0 1 16 17) ∧ decodeWord 0x5810_0001 = .ok (.tacq 0 1) ∧
  decodeWord 0x5840_0002 = .ok (.trel 0 4) ∧ decodeWord 0x5840_0022 = .ok (.trelFill 0 4) ∧
  decodeWord 0x5852_0003 = .ok (.tstat 0 5 4) ∧ decodeWord 0x0253_1C02 = .ok (.mul 0 5 6 7 0) ∧
  decodeWord 0x0253_1E03 = .ok (.mulh 0 5 6 7 1 0) ∧ decodeWord 0x1E00_0002 = .ok .nop ∧
  decodeWord 0x1480_0010 = .ok (.addpc 0 8 16) ∧ decodeWord 0x128B_FFFF = .ok (.lhi 0 8 2 0x3FFFF) ∧
  decodeWord 0x1630_88C0 = .ok (.plog 0 3 1 2 6) ∧ decodeWord 0x1652_0002 = .ok (.pcnt 0 5 4) ∧
  decodeWord 0x1652_0021 = .ok (.pmov 0 5 4 1) ∧ decodeWord 0x1624_8003 = .ok (.pset 0 2 9) ∧
  decodeWord 0x7803_1C01 = .ok (.free 0 6 7)

/-- Decoding is inverse to encoding: the word of every well-formed instruction decodes to that instruction, with every operand. -/
def Obligations.DecodeOfEncode : Prop :=
  ∀ i : Instr, i.wellFormed = true → decodeWord (encode i) = .ok i

/-! ### The step (R36, R59, R60, R257) -/

/-- A ready strand whose bundle is one word, fetched now or, where the word has begun to wait, kept from its fetch (R52): the step
executes the instruction that the word decodes to, at the strand's PC, and marks the issue cycle unless the word waits or had issued
before (R37). So in a planned issue, and so where the issue of the core takes the strand first. -/
def Obligations.StepRunsDecoded : Prop :=
  ∀ (s u : State) (cn slot : Nat) (w : IWord) (i : Instr),
    let x := s.strand cn slot
    let v : State := { u with cur := cursorAt cn slot x.pc 1 false false none none u.nextRid }
    x.live = true → x.yielded = false → x.refusalDue = false → s.mayIssue cn slot = true → x.rest = [] → x.susp = none →
    x.await = none → x.rep = none →
    ((x.holds = [] ∨ x.fetched = []) ∧ s.fetchAt cn slot x.pc x.jumped = (.words [w], u) ∨
      x.holds ≠ [] ∧ x.fetched = [w] ∧ u = s) → decodeWord w = .ok i →
    bundleIllegal [wordUses w] (fun r => !isDense cn && (u.core cn).regs.claim == some slot && 12 ≤ r) = false →
    (u.strand cn slot).blocked [wordUses w] = false → ((wordUses w).cls = .e → (u.core cn).modeWaits = false) →
    (u.strand cn slot).counted = false → s.powered = true →
    (∀ a r, a.agenda = .issue cn slot :: r → { a with agenda := r } = s → a.powered = true →
      step a = match exec i v with
        | .next t => .next (let t' := t.keepWords cn slot [w]
                            if t.cur.ending = .waiting ∨ x.freeTurn = true then t' else t'.markIssued cn slot)
        | .fault f => .fault f
        | .refused f => .refused f) ∧
    (∀ a c t, a.agenda = [] → a.timed = [] → a.cores.find? (fun k => a.visited ≤ k.1) = some (cn, c) → a.removed = false →
      { a with visited := cn + 1 } = s → (∀ k < 12, (a.strand cn k).freeTurn = false) → (a.core cn).order.head? = some slot →
      exec i v = .next t → t.cur.ending ≠ .waiting → step a = .next ((t.keepWords cn slot [w]).markIssued cn slot))

/-! ### Memory and reset (R127 to R129, R143, R205, R288, R297) -/

/-- Every step keeps the canonical form of memory: rising addresses, and no byte listed that an unlisted address reads as. -/
def Obligations.MemoryStaysCanonical : Prop :=
  ∀ s t : State, s.mem.wf = true → step s = .next t → t.mem.wf = true

/-- After reset the device has power, holds no partition and runs nothing; CYCLE is 0, every tile descriptor and ticket slot is 0
and every table slot empty, no message, request or translation is held, the near caches and the L2 hold nothing, PCAP is 2,100 and
THROT 0. The canonical form of memory holds, with the model's choice of log 1 that nothing is listed. -/
def Obligations.ResetState : Prop :=
  let s := State.reset
  s.powered = true ∧ s.parts = [] ∧ s.mem.wf = true ∧ s.mem = [] ∧ s.cycle = 0 ∧ s.net = [] ∧ s.l2 = [] ∧ s.clusterTlb = [] ∧
  s.doms = [] ∧ s.dev.pcap = 2100 ∧ s.dev.throt = 0 ∧ s.dev.cstat = 0 ∧ s.dev.extents = [] ∧
  (∀ cn, ∀ k < 12, (s.strand cn k).live = false ∧ (s.strand cn k).susp = none) ∧
  (∀ cn, ∀ k < 32, (s.core cn).tile k = Tile.empty) ∧ (∀ cn, ∀ k < 64, (s.core cn).ticket k = Ticket.empty) ∧
  (∀ cn, ∀ k < 8, (s.core cn).binding k = none) ∧ ∀ cn, (s.core cn).inbox = [] ∧ (s.core cn).near = [] ∧ (s.core cn).microTlb = []

/-! ### Privilege (R5, R29, R32, R44, R57, R264) -/

/-- R5, R29, R57, R264: no instruction word of a user-mode strand changes the supervisor-only registers of its strand, its core or its
partition, or the task half of its stream identity; and none but NEXT, which takes the mode of a task, ends in supervisor mode. -/
def Obligations.UserWordsKeepPrivilege : Prop :=
  ∀ (s t : State) (i : Instr), s.alone = true → s.cur.slot < 11 → s.me.sup = false → i.wellFormed = true → exec i s = .next t →
    let r := s.myCore.regs
    let q := t.myCore.regs
    let x := s.partFor s.cur.cn
    let y := t.partFor s.cur.cn
    t.me.rkey = s.me.rkey ∧ q.htab = r.htab ∧ q.fhnd = r.fhnd ∧ q.wdog = r.wdog ∧ q.ctxbase = r.ctxbase ∧ q.perm = r.perm ∧
    q.bdtab = r.bdtab ∧ q.sltab = r.sltab ∧ y.ptroot = x.ptroot ∧ y.fpool = x.fpool ∧ y.alist = x.alist ∧ y.hg = x.hg ∧
    (t.me.sup = true ∨ t.me.sid.toNat / 2 ^ 32 ≠ s.me.sid.toNat / 2 ^ 32 → ∃ d, i = .next d)


/-! ### Scalar arithmetic (R315 to R317, R336, R337, R350, R352, R363, R371, R373, R382, R384 to R387, R427) -/

/-- R315, R316, R385, R427: sums, differences and bitwise functions of two registers, or of a register and an immediate, as
values modulo 2^64; under .w the low 32 bits of the result are sign-extended. Nothing else changes. -/
def Obligations.ScalarSumsAndLogic : Prop :=
  ∀ (s : State) (k w : BitVec 1) (d a b : BitVec 5) (i : BitVec 15), s.alone = true →
    let x := s.me.getX a.toNat
    let y := s.me.getX b.toNat
    let r (v : Word) : Word := if w = 1 then low32 v else v
    exec (.add k d a b w) s = .next (s.wroteX d (r (x + y))) ∧
    exec (.sub k d a b w) s = .next (s.wroteX d (r (x - y))) ∧
    exec (.and k d a b w) s = .next (s.wroteX d (r (x &&& y))) ∧
    exec (.andn k d a b w) s = .next (s.wroteX d (r (x &&& ~~~y))) ∧
    exec (.or k d a b w) s = .next (s.wroteX d (r (x ||| y))) ∧
    exec (.xor k d a b w) s = .next (s.wroteX d (r (x ^^^ y))) ∧
    exec (.addImm k d a i) s = .next (s.wroteX d (x + i.signExtend 64)) ∧
    exec (.andImm k d a i) s = .next (s.wroteX d (x &&& i.setWidth 64)) ∧
    exec (.orImm k d a i) s = .next (s.wroteX d (x ||| i.setWidth 64)) ∧
    exec (.xorImm k d a i) s = .next (s.wroteX d (x ^^^ i.setWidth 64))

/-- R385: shifts and rotates over 64 bits with the count's low six bits, and under .w over the low 32 bits with its low five,
the 32-bit result sign-extended. -/
def Obligations.ScalarShifts : Prop :=
  ∀ (s : State) (k w : BitVec 1) (d a b : BitVec 5) (c : BitVec 6), s.alone = true →
    let x := s.me.getX a.toNat
    let y := (s.me.getX b.toNat).toNat
    let r (n : Nat) (f : Word → Nat → Word) (g : BitVec 32 → Nat → BitVec 32) : Word :=
      if w = 1 then (g (x.setWidth 32) (n % 32)).signExtend 64 else f x (n % 64)
    exec (.shl k d a b w) s = .next (s.wroteX d (r y (· <<< ·) (· <<< ·))) ∧
    exec (.shr k d a b w) s = .next (s.wroteX d (r y (· >>> ·) (· >>> ·))) ∧
    exec (.shra k d a b w) s = .next (s.wroteX d (r y .sshiftRight .sshiftRight)) ∧
    exec (.rot k d a b w) s = .next (s.wroteX d (r y .rotateRight .rotateRight)) ∧
    exec (.shlImm k d a w c) s = .next (s.wroteX d (r c.toNat (· <<< ·) (· <<< ·))) ∧
    exec (.shrImm k d a w c) s = .next (s.wroteX d (r c.toNat (· >>> ·) (· >>> ·))) ∧
    exec (.shraImm k d a w c) s = .next (s.wroteX d (r c.toNat .sshiftRight .sshiftRight)) ∧
    exec (.rotImm k d a w c) s = .next (s.wroteX d (r c.toNat .rotateRight .rotateRight))

/-- R336, R385: CLZ and CTZ count the zero bits above the highest and below the lowest set bit of the operand's W bits (W for a
zero operand), POPC its set bits; W is 32 under .w. -/
def Obligations.BitCounts : Prop :=
  ∀ (s : State) (k w : BitVec 1) (d a : BitVec 5), s.alone = true →
    let x := s.me.getX a.toNat
    let W := if w = 1 then 32 else 64
    (∃ n ≤ W, exec (.clz k d a w) s = .next (s.wroteX d (BitVec.ofNat 64 n)) ∧
      (∀ j < W, W - n ≤ j → x.getLsbD j = false) ∧ (n < W → x.getLsbD (W - 1 - n) = true)) ∧
    (∃ n ≤ W, exec (.ctz k d a w) s = .next (s.wroteX d (BitVec.ofNat 64 n)) ∧
      (∀ j < n, x.getLsbD j = false) ∧ (n < W → x.getLsbD n = true)) ∧
    exec (.popc k d a w) s = .next (s.wroteX d (BitVec.ofNat 64 ((List.range W).countP x.getLsbD)))

/-- R65, R337, R373, R385: CMP sets all sixteen bits of a predicate to its condition, MIN and MAX write the smaller and the
larger operand, signed or under .n unsigned, over the low 32 bits under .w; SEL selects by bit 0 of a predicate. -/
def Obligations.ScalarComparisons : Prop :=
  ∀ (s : State) (k n w : BitVec 1) (d a b : BitVec 5) (c p : BitVec 3) (i : BitVec 11), s.alone = true → c.toNat < 6 →
    let e (v : Word) : Word := if w = 0 then v else if n = 0 then low32 v else (v.setWidth 32).setWidth 64
    let x := e (s.me.getX a.toNat)
    let y := e (s.me.getX b.toNat)
    let lt (u v : Word) : Bool := if n = 0 then u.slt v else u.ult v
    let holds (u v : Word) : Bool :=
      [u == v, u != v, lt u v, !lt u v, lt u v || u == v, lt v u].getD c.toNat false
    let all (h : Bool) : PWord := if h then 0xFFFF else 0
    let r (v : Word) : Word := if w = 1 then low32 v else v
    exec (.cmp k d a b n w c) s = .next (s.wroteP d (all (holds x y))) ∧
    exec (.cmpImm k d a c n i) s = .next (s.wroteP d (all (holds (s.me.getX a.toNat) (i.signExtend 64)))) ∧
    exec (.min k d a b n w) s = .next (s.wroteX d (r (if lt x y then x else y))) ∧
    exec (.max k d a b n w) s = .next (s.wroteX d (r (if lt x y then y else x))) ∧
    exec (.sel k d a b w p) s = .next (s.wroteX d
      (r (if (s.me.getP p.toNat).getLsbD 0 then s.me.getX a.toNat else s.me.getX b.toNat)))

/-- R382: MUL writes the low 64 bits of the product, MULH the high 64 bits of the signed or under .n unsigned product; under .w
the result comes from the 64-bit product of the low halves. -/
def Obligations.ScalarProducts : Prop :=
  ∀ (s : State) (k n w : BitVec 1) (d a b : BitVec 5), s.alone = true →
    let x := s.me.getX a.toNat
    let y := s.me.getX b.toNat
    let e (v : Word) : BitVec 128 := if n = 1 then v.setWidth 128 else v.signExtend 128
    let h (v : Word) : Word := if n = 1 then (v.setWidth 32).setWidth 64 else low32 v
    exec (.mul k d a b w) s = .next (s.wroteX d (if w = 1 then low32 (x * y) else x * y)) ∧
    exec (.mulh k d a b n w) s = .next (s.wroteX d
      (if w = 1 then ((h x * h y) >>> 32 |>.setWidth 32).signExtend 64 else ((e x * e y) >>> 64).setWidth 64))

/-- R257, R350, R386: with a free divider DIV writes the quotient rounded toward zero and REM the remainder with the sign of the
dividend, over W bits, signed or under .n unsigned; a zero divisor gives 2^W - 1 and the dividend. Each occupies the divider
for 24 cycles. While an earlier division occupies it, DIV and REM wait and change no register. -/
def Obligations.ScalarDivision : Prop :=
  (∀ (s : State) (k n w : BitVec 1) (d a b : BitVec 5), s.alone = true → s.me.divFree = 0 →
      let x := s.me.getX a.toNat
      let y := s.me.getX b.toNat
      let q {W : Nat} (u v : BitVec W) : BitVec W := if v = 0 then BitVec.allOnes W else if n = 1 then u / v else u.sdiv v
      let m {W : Nat} (u v : BitVec W) : BitVec W := if n = 1 then u % v else u.srem v
      let t := s.modMe fun u => { u with divFree := s.cycle + 24 }
      exec (.div k d a b n w) s = .next (t.wroteX d
        (if w = 1 then (q (x.setWidth 32) (y.setWidth 32)).signExtend 64 else q x y)) ∧
      exec (.rem k d a b n w) s = .next (t.wroteX d
        (if w = 1 then (m (x.setWidth 32) (y.setWidth 32)).signExtend 64 else m x y))) ∧
  (∀ (s : State) (k n w : BitVec 1) (d a b : BitVec 5), s.me.divFree ≠ 0 →
      exec (.div k d a b n w) s = .next (s.setEnding .waiting) ∧ exec (.rem k d a b n w) s = .next (s.setEnding .waiting))

/-- R66, R317, R352, R363, R371, R384, R387: EXTR reads a bit field, INS and LHI replace one and keep every other bit, ADDPC adds
words to the word's own address modulo 2^56; the predicate words and NOP. -/
def Obligations.FieldsAndPredicates : Prop :=
  (∀ (s : State) (k e : BitVec 1) (d a : BitVec 5) (l p : BitVec 6) (h : BitVec 2) (i : BitVec 18) (j : BitVec 15),
      s.alone = true → p.toNat + l.toNat + 1 ≤ 64 → h.toNat ≠ 3 →
      let x := s.me.getX a.toNat
      let f := x.extractLsb' p.toNat (l.toNat + 1)
      exec (.extr k d a e l p) s = .next (s.wroteX d (if e = 1 then f.signExtend 64 else f.setWidth 64)) ∧
      (∃ v : Word, exec (.ins k d a l p) s = .next (s.wroteX d v) ∧ ∀ b < 64, v.getLsbD b =
        if p.toNat ≤ b ∧ b < p.toNat + l.toNat + 1 then x.getLsbD (b - p.toNat) else (s.me.getX d.toNat).getLsbD b) ∧
      (∃ v : Word, exec (.lhi k d h i) s = .next (s.wroteX d v) ∧ ∀ b < 64, v.getLsbD b =
        if 14 + 16 * h.toNat ≤ b ∧ b < 32 + 16 * h.toNat then i.getLsbD (b - (14 + 16 * h.toNat))
        else (s.me.getX d.toNat).getLsbD b) ∧
      exec (.addpc k d j) s = .next (s.wroteX d ((s.cur.pc + j.signExtend 56 * 4).setWidth 64))) ∧
  (∀ (s : State) (k : BitVec 1) (d a b : BitVec 5) (t : BitVec 4), s.alone = true →
      let x := s.me.getP a.toNat
      let y := s.me.getP b.toNat
      (∃ v : PWord, exec (.plog k d a b t) s = .next (s.wroteP d v) ∧
        ∀ i < 16, v.getLsbD i = t.getLsbD (2 * (x.getLsbD i).toNat + (y.getLsbD i).toNat)) ∧
      exec (.pmov k d a 0) s = .next (s.wroteP d x) ∧
      exec (.pmov k d a 1) s = .next (s.wroteX d (x.setWidth 64)) ∧
      exec (.pcnt k d a) s = .next (s.wroteX d (BitVec.ofNat 64 ((List.range 16).countP x.getLsbD))) ∧
      exec (.pset k d a) s = .next (s.wroteP d ((s.me.getX a.toNat).setWidth 16)) ∧
      exec .nop s = .next s.thenNext)


/-! ### Control transfers and repetition (R67, R258, R328, R330, R365, R372, R393) -/

/-- R58, R67, R328, R330, R365, R372: BR, BRP, CALL and LOOP compute their targets from the address of the word itself, modulo
2^56; CALL writes the link to s1; LOOP decrements and goes back while the new value is not zero. JR goes to the old X[a] and
writes the link; a target that is no multiple of 4 raises 0x04 and one above 2^56 raises 0x07, each with FADDR = X[a] and no
transfer. -/
def Obligations.BranchesAndLoops : Prop :=
  (∀ (s : State) (k e : BitVec 1) (p d : BitVec 5) (i : BitVec 25) (j : BitVec 19) (o : BitVec 10), s.alone = true →
      let n := s.me.getX d.toNat - 1
      let t := s.modMe fun u => u.setX d.toNat n
      exec (.br k i) s = .next (s.jumpsTo (s.cur.pc + i.signExtend 56 * 4)) ∧
      exec (.brp k p e j) s = .next (
        if (s.me.getP p.toNat).getLsbD 0 = e.getLsbD 0 then s.jumpsTo (s.cur.pc + j.signExtend 56 * 4) else s.thenNext) ∧
      exec (.call k i) s = .next
        ((s.modMe fun u => u.setX 1 ((s.cur.pc + 4).setWidth 64)).jumpsTo (s.cur.pc + i.signExtend 56 * 4)) ∧
      exec (.loop k d o) s = .next (if n = 0 then t.thenNext else t.jumpsTo (s.cur.pc + o.signExtend 56 * 4))) ∧
  (∀ (s : State) (k : BitVec 1) (d a : BitVec 5), s.alone = true → s.cur.slot ≠ 11 →
      let x := s.me.getX a.toNat
      exec (.jr k d a) s = .next (
        if x.toNat % 4 ≠ 0 then s.suspendedAt 0x04 x s.cur.bundle
        else if 2 ^ 56 ≤ x.toNat then s.suspendedAt 0x07 x s.cur.bundle
        else (s.modMe fun u => u.setX d.toNat ((s.cur.pc + 4).setWidth 64)).jumpsTo (x.setWidth 56)))

/-- R258, R259, R393: REP on a dense sequencer captures its body and begins the passes at the word after it; a count of zero skips
the body. On pass j each of the fields d, a, b and c that the mask selects holds its captured value plus j times the stride modulo
32, and no other bit differs. A step of a strand in a body of one word executes the word of its pass, then goes to the next pass, or
after the last to the bundle that follows the body and what has run ahead of it. Beside it a bundle of one s-class word after the
body runs ahead, if no pass reads or writes what it uses: it reads what the pass reads, and goes no further than 15 words (R283). -/
def Obligations.RepStartsPasses : Prop :=
  (∀ (s : State) (m a st : BitVec 5) (n : BitVec 4) (ws : List IWord), s.alone = true → isDense s.cur.cn = true →
    let count := (s.me.getX a.toNat).toNat
    count < 2 ^ 16 → s.capture (s.cur.pc + 4) (n.toNat + 1) = .ok ws → ws.all repeatable = true →
    wordB (ws.getLastD 0) = false →
    exec (.rep m a st n) s = .next (
      if count = 0 then s.jumpsTo (s.cur.pc + 4 + BitVec.ofNat 56 (4 * (n.toNat + 1)))
      else (s.modMe fun t => { t with rep := some {
        base := s.cur.pc, words := ws, stride := st.toNat, mask := m.toNat, pass := 0, remaining := count, pos := 0,
        ahead := 0 } }).jumpsTo (s.cur.pc + 4))) ∧
  (∀ (w : IWord) (m j : Nat) (st : Int),
    let v := repWord w m st j
    (∀ x ∈ [(20, 0), (15, 1), (10, 2), (5, 3)], ((v.toNat / 2 ^ x.1 % 32 : Nat) : Int) =
      if m.testBit x.2 then (((w.toNat / 2 ^ x.1 % 32 : Nat) : Int) + j * st) % 32 else ((w.toNat / 2 ^ x.1 % 32 : Nat) : Int)) ∧
    ∀ i < 32, i < 5 ∨ 25 ≤ i → v.getLsbD i = w.getLsbD i) ∧
  (∀ (s t a : State) (l : List Move) (cn slot : Nat) (r : Rep) (i : Instr),
    let x := s.strand cn slot
    let w := repWord (r.words.headD 0) r.mask (signed r.stride 5) r.pass
    let after : Addr := r.base + 8 + BitVec.ofNat 56 (4 * r.ahead)
    let goes (q : Rep) (u : State) : State := (u.modStrand cn slot fun y =>
      if r.remaining ≤ 1 then { y with rep := none, pc := r.base + 8 + BitVec.ofNat 56 (4 * q.ahead) }
      else { y with rep := some { q with pass := r.pass + 1, remaining := r.remaining - 1 }, pc := r.base + 4 }).markIssued cn slot
    x.live = true → x.yielded = false → x.refusalDue = false → x.freeTurn = false → s.mayIssue cn slot = true → x.rest = [] →
    x.susp = none → x.await = none → x.rep = some r → r.words.length = 1 → r.pos = 0 → wordB w = false → x.pc.toNat % 4 = 0 →
    decodeWord w = .ok i →
    bundleIllegal [wordUses w] (fun k => !isDense cn && (s.core cn).regs.claim == some slot && 12 ≤ k) = false →
    x.blocked [wordUses w] = false → ((wordUses w).cls = .e → (s.core cn).modeWaits = false) → x.counted = false →
    exec i { s with cur := cursorAt cn slot x.pc 1 false false none none s.nextRid } = .next t → t.cur.ending = .done →
    (t.strand cn slot).rep = some r → a.agenda = .issue cn slot :: l → { a with agenda := l } = s → a.powered = true →
    ((∀ ws, (t.fetchAt cn slot after false).1 ≠ .words ws) → step a = .next (goes r t)) ∧
    (∀ (v : IWord) (j : Instr) (u : State), (t.fetchAt cn slot after false).1 = .words [v] → decodeWord v = .ok j →
      (wordUses v).cls = .s → (wordUses v).ctl = false → meets ((wordUses v).srcs ++ (wordUses v).dsts) r.regs = false →
      settlesPlace j = false → meets (sysOf v) (r.words.flatMap sysOf) = false → r.ahead < 15 →
      bundleIllegal [wordUses v] (fun _ => false) = false → x.blocked [wordUses v] = false → (t.strand cn slot).mid = none →
      (t.strand cn slot).susp = none →
      exec j { t with cur := cursorAt cn slot after 1 true false (some (s.core cn)) (some (t.partFor cn)) t.nextRid } = .next u →
      u.cur.ending = .done → u.cur.late = [] → u.cur.cn = cn → u.cur.slot = slot →
      flagsTrap (t.strand cn slot).fctl.toNat u.cur.flags = false →
      step a = .next (goes { r with ahead := r.ahead + 1 } (u.modMe fun y => { y with
        flags := y.flags ||| BitVec.ofNat 64 u.cur.flags, rep := some { r with ahead := r.ahead + 1 }
        pc := (t.strand cn slot).pc }))))

/-! ### Exceptions (R51, R271 to R274, R395, R416) -/

/-- R51, R79, R271 to R273, R277, R329, R416: TRAP suspends its strand with cause 0x10 and FADDR = X[a], to resume after the
bundle; a word that is no instruction suspends it with cause 0x01 and FADDR 0, to resume at the bundle, and no other effect
takes place. A fault of the handler strand itself stops its partition: the partition is fatal, no message is left in the core's
inbox, and no strand is suspended by it. The fetch of a bundle that fails suspends the strand with the cause of the fetch and
FADDR, to fetch again (a page-table line that its home holds is waited for); what words of the bundle had taken while they waited is given back, and the place that the strand came from
stays (R60). -/
def Obligations.TrapsSuspendTheStrand : Prop :=
  (∀ (s : State) (a : BitVec 5) (w : IWord), s.alone = true → s.cur.slot ≠ 11 →
      exec (.trap a) s = .next (s.suspendedAt 0x10 (s.me.getX a.toNat) (s.cur.bundle + 4)) ∧
      exec (.illegalInstruction w) s = .next (s.suspendedAt 0x01 0 s.cur.bundle)) ∧
  (∀ (s : State) (w : IWord) (p : Nat) (x : Machine.Part), s.alone = true → s.cur.slot = 11 → s.partOf? s.cur.cn = some p →
      s.part? p = some x → x.holds s.cur.cn = true → x.status = .running →
      ∃ t, exec (.illegalInstruction w) s = .next t ∧ (t.part p).status = .fatal ∧ (t.core s.cur.cn).inbox = [] ∧
        (t.strand s.cur.cn 11).susp = none) ∧
  (∀ (s u : State) (c : Nat) (a : Word), s.cur.slot < 11 →
      s.fetchAt s.cur.cn s.cur.slot s.me.pc s.me.jumped = (.fault c a, u) → c % 2 ^ 8 ≠ 0x13 → c ≠ heldCause →
      exec .instructionFetchFault s = .next ((u.modCore s.cur.cn fun k => k.giveTiles s.cur.slot).modStrand s.cur.cn s.cur.slot fun t =>
        { t.dropMid with susp := some { cause := c, faddr := a, fpc := s.me.pc }, pc := s.me.pc, holds := [] }))

/-- R212, R232, R273: when the handler strand is empty, the entry of the lowest waiting suspended strand writes CAUSE, FADDR, FPC
and FSLOT and makes the handler live at FHND in supervisor mode, with its general registers and every other strand's as they
were; with no strand entry waiting, the entry of the lowest parked ticket does so and suspends no strand; with no entry waiting
at all, the oldest inbox message starts the handler at the entry of the handler table that its target word names, in the mode
of that entry, with the payload in s20 to s23 and the source in s24. An entry whose V is 0, whose address is no multiple of 4, or
whose mode is supervisor where the table is not locked, starts nothing: the message leaves the inbox and is diverted with reason 2.
That the handler begins at FHND with its two low bits cleared is log 55. -/
def Obligations.EntriesStartTheHandler : Prop :=
  (∀ (s : State) (cn slot : Nat) (r : FaultRec), (s.core cn).handlerEmpty = true → s.entriesOpen cn = true →
      (s.core cn).waitingFault = some (slot, r) →
      ∃ t, exec (.faultEntry cn) s = .next t ∧
        let c := t.core cn
        c.regs.cause = BitVec.ofNat 64 r.cause ∧ c.regs.faddr = r.faddr ∧ c.regs.fpc = r.fpc.setWidth 64 ∧
        c.regs.fslot = BitVec.ofNat 64 slot ∧ c.run = .strand slot ∧
        (c.strand 11).live = true ∧ (c.strand 11).sup = true ∧
        (c.strand 11).pc = (s.core cn).regs.fhnd.setWidth 56 &&& ~~~3 ∧ (c.strand 11).x = (s.strand cn 11).x ∧
        c.strand slot = { s.strand cn slot with inEntry := true } ∧
        (∀ k, k ≠ 11 → k ≠ slot → c.strand k = s.strand cn k) ∧ (∀ k, k ≠ cn → t.core k = s.core k) ∧ t.mem = s.mem) ∧
  (∀ (s : State) (cn n : Nat), (s.core cn).handlerEmpty = true → s.entriesOpen cn = true →
      (s.core cn).waitingFault = none → (s.core cn).waitingTicket = some n →
      ∃ t, exec (.ticketFaultEntry cn) s = .next t ∧
        let c := t.core cn
        c.regs.faddr = ((s.core cn).ticket n).faddr ∧ c.regs.fpc = ((s.core cn).ticket n).pc.setWidth 64 ∧
        c.regs.cause = BitVec.ofNat 64 (((s.core cn).ticket n).cause + 2 ^ 8 + n * 2 ^ 9) ∧ c.run = .ticket n ∧
        c.regs.fslot = BitVec.ofNat 64 (if ((s.core cn).ticket n).owner = 15 then 0 else ((s.core cn).ticket n).owner) ∧
        (c.strand 11).live = true ∧ (c.strand 11).sup = true ∧
        (c.strand 11).pc = (s.core cn).regs.fhnd.setWidth 56 &&& ~~~3 ∧ (c.strand 11).x = (s.strand cn 11).x ∧
        c.ticket n = { (s.core cn).ticket n with entryWaits := false } ∧ (∀ k, k ≠ n → c.ticket k = (s.core cn).ticket k) ∧
        (∀ k, k ≠ 11 → c.strand k = s.strand cn k) ∧ (∀ k, k ≠ cn → t.core k = s.core k) ∧ t.mem = s.mem) ∧
  (∀ (s : State) (cn : Nat) (m : Msg) (r : List Msg), (s.core cn).inbox = m :: r → (s.core cn).handlerEmpty = true →
      s.entriesOpen cn = true → (s.core cn).waitingFault = none → (s.core cn).waitingTicket = none →
      let htab := (s.core cn).regs.htab.toNat
      let e := leNat (s.mem.readN (scratchKey cn (htab % 2 ^ 16 + 8 * (m.target.toNat / 2 ^ 32 % 16))) 8)
      e / 2 ^ 63 % 2 = 1 → e % 4 = 0 → (e / 2 ^ 62 % 2 = 1 → htab / 2 ^ 63 % 2 = 1) →
      ∃ t, exec (.handlerStart cn) s = .next t ∧ (t.core cn).inbox = r ∧ (t.core cn).run = .message ∧
        (t.strand cn 11).live = true ∧ (t.strand cn 11).pc = BitVec.ofNat 56 e ∧
        (t.strand cn 11).sup = (e / 2 ^ 62 % 2 == 1) ∧
        (∀ i < 4, (t.strand cn 11).getX (20 + i) = BitVec.ofNat 64 ((m.payload.getD i 0).toNat)) ∧
        (t.strand cn 11).getX 24 = BitVec.ofNat 64 (m.srcDev * 2 ^ 16 + m.srcCn) ∧
        (∀ i, i < 20 ∨ 24 < i → (t.strand cn 11).getX i = (s.strand cn 11).getX i) ∧
        (∀ k ≠ 11, t.strand cn k = s.strand cn k) ∧ (∀ k, k ≠ cn → t.core k = s.core k) ∧ t.mem = s.mem) ∧
  (∀ (s : State) (cn : Nat) (m : Msg) (r : List Msg), (s.core cn).inbox = m :: r → (s.core cn).handlerEmpty = true →
      s.entriesOpen cn = true → (s.core cn).waitingFault = none → (s.core cn).waitingTicket = none →
      let htab := (s.core cn).regs.htab.toNat
      let e := leNat (s.mem.readN (scratchKey cn (htab % 2 ^ 16 + 8 * (m.target.toNat / 2 ^ 32 % 16))) 8)
      (e / 2 ^ 63 % 2 = 0 ∨ e % 4 ≠ 0 ∨ e / 2 ^ 62 % 2 = 1 ∧ htab / 2 ^ 63 % 2 = 0) →
      let q := s.setCore cn { s.core cn with inbox := r }
      ∃ t, exec (.handlerStart cn) s = .next t ∧ t = q.divert 2 m ∧ (t.core cn).inbox = r ∧ (t.core cn).handlerEmpty = true ∧
        (s.dev.sqProd - s.dev.sqCons < 256 → t.dev.sqProd = s.dev.sqProd + 1 ∧ t.dev.msix = s.dev.msix + 1))

/-- R274, R395: RTE of a strand entry resumes the suspended strand where its cause left its PC, in the mode and with the
registers it held; a ticket entry resumes no strand; the handler slot empties. -/
def Obligations.ReturnFromException : Prop :=
  ∀ (s : State), s.alone = true → s.cur.slot = 11 → s.me.sup = true →
    ∃ t, exec .rte s = .next t ∧ (t.strand s.cur.cn 11).live = false ∧ (t.core s.cur.cn).run = .idle ∧
      (∀ k < 11, t.strand s.cur.cn k =
        if s.myCore.run = .strand k then
          { s.strand s.cur.cn k with susp := none, inEntry := false, divFree := 0 }
        else s.strand s.cur.cn k) ∧
      (t.strand s.cur.cn 11).x = s.me.x ∧ 
      t.myCore.regs = { s.myCore.regs with claim := if s.myCore.regs.claim = some 11 then none else s.myCore.regs.claim } ∧
      (∀ k, k ≠ s.cur.cn → t.core k = s.core k) ∧ t.mem = s.mem

/-- R29, R93 to R95, R340: in user mode every supervisor-only word raises cause 0x03, COMMIT and DECOMMIT with FADDR = X[a]; a matrix-class word on a bobbin core, and SPAWN,
JOIN, NEXT and ADOPT in another slot than 0, raise cause 0x01; none of them has another effect. -/
def Obligations.WordsOutOfPlace : Prop :=
  (∀ (s : State) (i : Instr), s.alone = true → s.cur.slot < 11 → s.me.sup = false →
      (∃ (k g : BitVec 1) (d a : BitVec 5) (o : BitVec 10) (e : BitVec 3), i ∈ [.cinv k a o, .ctxsv, .ctxld, .idle, .rte,
        .tinfoResume k d a, .tlbi k a g e]) →
      exec i s = .next (s.suspendedAt 0x03 0 s.cur.bundle)) ∧
  (∀ (s : State) (k : BitVec 1) (a : BitVec 5), s.alone = true → s.cur.slot < 11 → s.me.sup = false →
      exec (.commit k a) s = .next (s.suspendedAt 0x03 (s.me.getX a.toNat) s.cur.bundle) ∧
      exec (.decommit k a) s = .next (s.suspendedAt 0x03 (s.me.getX a.toNat) s.cur.bundle)) ∧
  (∀ (s : State) (i : Instr), s.alone = true → s.cur.slot ≠ 11 → isDense s.cur.cn = false →
      (fld (encode i).toNat 25 6 ∈ [0x30, 0x31, 0x33, 0x34, 0x35, 0x36]) → i.wellFormed = true →
      exec i s = .next (s.suspendedAt 0x01 0 s.cur.bundle)) ∧
  (∀ (s : State) (i : Instr), s.alone = true → s.cur.slot ≠ 0 → s.cur.slot ≠ 11 →
      (∃ (k : BitVec 1) (d a b : BitVec 5), i ∈ [.spawn d a b, .join a, .next d, .adopt k d a]) →
      exec i s = .next (s.suspendedAt 0x01 0 s.cur.bundle))

/-! ### Strands and tasks (R32 to R35, R42 to R44, R345 to R347, R361, R380) -/

/-- R32 to R35, R274, R351, R361, R405, R428: SPAWN starts the lowest empty helper slot; JOIN goes on when no named helper is
live; YIELD gives up the turn; IDLE goes on when a message is in the inbox, or when one that came while it waited has woken it.
EXIT of a control strand without helpers, or of a helper without unfinished writes, whose attached tickets have ended without a
fault, empties its slot; EXIT of the handler in a strand entry empties the suspended strand's slot and the handler's, and in a
message run the handler's. -/
def Obligations.HelperWords : Prop :=
  (∀ (s : State) (d a b : BitVec 5) (h : Nat), s.alone = true →
      (let pc := s.me.getX a.toNat;
        s.cur.slot = 0 → pc.toNat % 4 = 0 → pc.toNat < 2 ^ 56 → s.myCore.freeHelper = some h →
        s.releaseWaits s.cur.cn 0 1 = false →
        ∃ t, exec (.spawn d a b) s = .next t ∧ t.me.getX d.toNat = (if d = 0 then 0 else BitVec.ofNat 64 h) ∧
          (t.strand s.cur.cn h).live = true ∧ (t.strand s.cur.cn h).pc = pc.setWidth 56 ∧
          (t.strand s.cur.cn h).sup = s.me.sup ∧ (t.strand s.cur.cn h).getX 3 = s.me.getX b.toNat ∧
          (t.strand s.cur.cn h).draw = 0 ∧ s.keeps t [d] ∧
          ∀ k, k ≠ 0 → k ≠ h → t.strand s.cur.cn k = s.strand s.cur.cn k) ∧
      (s.cur.slot = 0 → (∀ i, 1 ≤ i → i ≤ 10 → (s.myCore.strand i).live = true →
          a ≠ 0 ∧ (s.me.getX a.toNat).getLsbD i = false) →
        exec (.join a) s = .next (s.acquire s.cur.cn 1).thenNext) ∧
      exec .yield s = .next (s.modMe fun u => { u with yielded := true }).thenNext ∧
      (s.me.sup = true → s.held = none → s.myCore.inbox ≠ [] → exec .idle s = .next s.thenNext) ∧
      (s.me.sup = true → s.held = some .woken → exec .idle s = .next s.thenNext)) ∧
  (∀ (s : State), s.alone = true →
      (0 < s.cur.slot → s.cur.slot < 11 → s.myCore.attached s.cur.slot = [] → (∀ n < 64, s.myCore.freesNow n = false) →
        s.releaseWaits s.cur.cn s.cur.slot 4 = false →
        ∃ t, exec .exit s = .next t ∧ t.me.live = false ∧ t.mem = s.mem ∧ (∀ k, k ≠ s.cur.cn → t.core k = s.core k) ∧
          ∀ k, k ≠ s.cur.slot → t.strand s.cur.cn k = s.strand s.cur.cn k) ∧
      (∀ k < 11, s.cur.slot = 11 → s.myCore.run = .strand k →
        ∃ t, exec .exit s = .next t ∧ (t.strand s.cur.cn k).live = false ∧ (t.strand s.cur.cn 11).live = false ∧
          (t.core s.cur.cn).run = .idle ∧ (∀ j, j ≠ k → j ≠ 11 → t.strand s.cur.cn j = s.strand s.cur.cn j) ∧
          ((∀ n < 64, s.myCore.freesNow n = false ∧ ((s.myCore.ticket n).live = true → (s.myCore.ticket n).owner ≠ k)) →
            t.mem = s.mem)) ∧
      (s.cur.slot = 11 → s.myCore.run = .message →
        ∃ t, exec .exit s = .next t ∧ t.me.live = false ∧ (t.core s.cur.cn).run = .idle ∧ t.mem = s.mem) ∧
      (s.cur.slot < 11 → (s.cur.slot = 0 → s.myCore.noHelpers = true) →
        (∀ n ∈ s.myCore.attached s.cur.slot, (s.myCore.ticket n).st = .done ∨ (s.myCore.ticket n).st = .cancelled) →
        (s.cur.slot ≠ 0 → s.releaseWaits s.cur.cn s.cur.slot 4 = false) →
        ∃ t, exec .exit s = .next t ∧ t.me.live = false ∧ ∀ j, j ≠ s.cur.slot → t.strand s.cur.cn j = s.strand s.cur.cn j))

/-- R44, R208, R383: with no live helper, and with every attached ticket ended without a fault, NEXT takes the oldest task of the highest level: its record's STATE
becomes TAKEN (3), the link, the argument, the task number and the handle are written, the mode and the stream are the task's, and control
goes to the task's entry, its two low bits read as zero (log 55); the flags of the attached tickets join FLAGS. -/
def Obligations.NextTakesTheOldestTask : Prop :=
  ∀ (s : State) (d : BitVec 5) (l off at_ : Nat) (r : List (Nat × Nat)), s.alone = true → s.cur.slot = 0 → s.mem.wf = true →
    s.myCore.noHelpers = true → (∀ n ∈ s.myCore.attached 0, (s.myCore.ticket n).st = .done ∨ (s.myCore.ticket n).st = .cancelled) →
    (∀ n < 64, s.myCore.freesNow n = false) → s.agingDue s.cur.cn = false → s.myCore.topLevel = some l →
    s.myCore.level l = (off, at_) :: r →
    let x := s.taskRec s.cur.cn off
    let handle := taskHandle (recTaskNo x) off s.cur.cn
    let gets (t : State) (q : BitVec 5) (v : Word) : Prop := t.me.getX q.toNat = if q = d then handle else v
    ∃ t, exec (.next d) s = .next t ∧ t.me.pc = BitVec.ofNat 56 (recEntry x / 4 * 4) ∧
      gets t 1 (s.cur.pc.setWidth 64) ∧ gets t 3 (BitVec.ofNat 64 (recArg x)) ∧ gets t 4 (BitVec.ofNat 64 (recTaskNo x)) ∧
      t.me.getX d.toNat = (if d = 0 then 0 else handle) ∧
      t.me.sup = recSup x ∧ t.me.draw = 0 ∧ t.me.sid = BitVec.ofNat 64 (recTaskNo x * 2 ^ 32) ∧
      recState (t.taskRec s.cur.cn off) = 3 ∧ t.myCore.level l = r ∧
      (∀ q : BitVec 5, q ∉ [1, 3, 4, d] → t.me.getX q.toNat = s.me.getX q.toNat) ∧ t.me.v = s.me.v ∧ t.me.p = s.me.p ∧
      t.me.fctl = s.me.fctl ∧ t.me.flags = (s.myCore.attached 0).foldl (fun f n => f ||| BitVec.ofNat 64 (s.myCore.ticket n).tflags) s.me.flags ∧
      t.me.rkey = s.me.rkey ∧ (∀ k, k ≠ s.cur.cn → t.core k = s.core k) ∧
      ∀ a, a < scratchKey s.cur.cn off ∨ scratchKey s.cur.cn off + 32 ≤ a → t.mem.read a = s.mem.read a

/-- R42, R43, R52, R348, R411: TASK reads its specification and sends one request to the home of the record, then writes the handle
that this home has acknowledged, or raises the cause with which it refused; DECR, after its release, posts one decrement of the
handle to the home core that the handle names. -/
def Obligations.TaskAndDecrement : Prop :=
  ∀ (s : State) (d a b : BitVec 5) (h : Word), s.alone = true →
    (s.held = some (.replied h none) → exec (.task d a b) s = .next (s.wroteX d h)) ∧
    (∀ c f, s.held = some (.replied h (some (c, f))) → s.cur.slot ≠ 11 → c % 2 ^ 8 ≠ 0x13 → c ≠ heldCause →
      exec (.task d a b) s = .next (s.suspendedAt c f (s.cur.resume c))) ∧
    (∀ spec t, let va := s.me.getX a.toNat;
      let cn := (s.me.getX b.toNat).toNat % 2 ^ 16;
      let off := (s.me.getX b.toNat).toNat / 2 ^ 16 % 2 ^ 16;
      s.held = none → va.toNat % 8 = 0 → va.toNat + 24 ≤ 0x10000 → s.mine cn = true → off % 32 = 0 →
      s.readStrand va 24 = (.ok spec, t) → let sup := leAt spec 0x16 2 / 4 % 2 == 1;
      (sup = true → s.me.sup = true) → leAt spec 0 8 % 4 = 0 →
      exec (.task d a b) s = .next (((s.asks { t.wordRequest (.scratch cn off) (.task off spec sup) 0 none none none with
        rid := s.nextRid }).note (.reply s.nextRid)).setEnding .begun)) ∧
    (let x := s.me.getX a.toNat;
      let cn := x.toNat % 2 ^ 16;
      let off := x.toNat / 2 ^ 16 % 2 ^ 16;
      s.mine cn = true → off % 32 = 0 → s.releaseWaits s.cur.cn s.cur.slot 4 = false →
      let r : Req := {
        rid := s.nextRid, src := s.cur.cn, slot := s.cur.slot, part := s.partNo s.cur.cn, sup := s.me.sup, va := 0,
        fpc := s.cur.bundle, home := .scratch cn off, op := .decr x, og := none, depart := none, due := none };
      exec (.decr a) s = .next ({ s with net := s.net ++ [r], nextRid := s.nextRid + 1 } : State).thenNext)

/-- R256, R282, R283, R345 to R347, R380: MODE, once every ticket of the core has ended and no write is pending, sets the latency mode
of the core and changes nothing else. In slot 0 in supervisor mode, with no other live strand and the core at rest, CTXSV writes the
core's image, with the PC of the next bundle in slot 0's record, to the context area, and CTXLD loads the core from it and goes on at
the record's PC; a page that refuses raises its cause (a poisoned walk by log 65). The image holds the scratchpad, the strands'
registers and PCs, the tickets' status words, the tile descriptors, the words of the register numbers, the number of messages and the
fault records at the offsets of R282 and R283. Unpacking it gives every live strand and tile back as it was, but for the Reserved bits
of FCTL, FLAGS and CAUSE and the low bits of the PC (log 34). The run lists that unpacking rebuilds are log 72. -/
def Obligations.ModesAndContexts : Prop :=
  (∀ (s : State), s.alone = true → isDense s.cur.cn = true → s.modeReady = true → s.me.pend = [] →
      let m (e : Bool) := s.modMyCore fun c => { c with regs := { c.regs with exposed := e } }
      exec .modeExposed s = .next (m true).thenNext ∧ exec .modeScoreboard s = .next (m false).thenNext) ∧
  (∀ (s : State), s.alone = true → s.cur.slot = 0 → s.me.sup = true →
      (∀ i, 0 < i → i < 12 → (s.myCore.strand i).live = false) → s.myCore.regs.ctxbase.toNat % 4096 = 0 →
      s.atRest s.cur.cn = true →
      (let img := (s.modMe fun t => { t with pc := s.cur.bundle + 4, holds := [] }).packCore s.cur.cn;
        match s.writeBytes (s.access false true) s.cur.slot s.myCore.regs.ctxbase img with
        | .ok u => exec .ctxsv s = .next u.thenNext
        | .error (.fault c a) => exec .ctxsv s = .next (s.refusedAt c (if c = 0x03 then 0 else a))
        | _ => True) ∧
      (s.myCore.tickets.toList.any (·.live) = false →
        match s.readBytes (s.access true false) s.myCore.regs.ctxbase 0x18000 with
        | (.ok bs, u) =>
          let v := ((u.unpackCore s.cur.cn bs false).startRefs (s.partNo s.cur.cn)).dropRefs (s.partNo s.cur.cn)
          v.me.susp = none → exec .ctxld s = .next (v.jumpsTo v.me.pc)
        | (.error (.fault c a), _) => exec .ctxld s = .next (s.refusedAt c (if c = 0x03 then 0 else a))
        | _ => True)) ∧
  (∀ (s : State) (cn : Nat) (g : Bool),
      let c := s.core cn
      let bs := s.packCore cn
      let v := s.unpackCore cn bs g
      (∀ i < 12, (c.strand i).pend = []) → (∀ p < 4, (c.queues[p]?.getD []).length ≤ 8) → c.inbox.length + c.heldIn.length ≤ 32 →
      (∀ m ∈ c.inbox ++ c.heldIn ++ s.sendPort cn, m.payload.length ≤ 4) → (∀ k < 8, ∀ b ∈ c.binding k, b.desc.length ≤ 0x30) →
      bs.length = 0x18000 ∧ bs.take 0x10000 = s.mem.readN (scratchKey cn 0) 0x10000 ∧
      (∀ i < 12, let at_ := 0x10000 + 1024 * i
        (∀ r < 32, leAt bs (at_ + 8 * r) 8 = ((c.strand i).getX r).toNat) ∧
        (∀ r < 16, leAt bs (at_ + 0x100 + 16 * r) 16 = ((c.strand i).getV r).toNat) ∧
        leAt bs (at_ + 0x240) 8 = (c.strand i).pc.toNat ∧
        leAt bs (0x15E00 + 32 * i) 8 = (match (c.strand i).susp with | none => 0 | some f => f.cause % 2 ^ 64)) ∧
      (∀ n < 64, leAt bs (0x13000 + 64 * n) 8 = (c.ticket n).status % 2 ^ 64) ∧
      (∀ k < 32, leAt bs (0x14000 + 8 * k) 8 = (c.tile k).word % 2 ^ 64) ∧
      (∀ k ≤ 0x070, leAt bs (0x15400 + 8 * k) 8 = (s.coreReg cn k).getD 0 % 2 ^ 64) ∧
      leAt bs 0x15BF8 8 = c.inbox.length + c.heldIn.length ∧
      (∀ i < 12, (c.strand i).live = true → let x := c.strand i; let y := v.strand cn i
        y.live = true ∧ y.sup = x.sup ∧ y.inEntry = x.inEntry ∧ y.pc = (x.pc &&& ~~~3) ∧ (∀ r < 32, y.getX r = x.getX r) ∧
        (∀ r < 16, y.getV r = x.getV r) ∧ (∀ r < 24, y.getP r = x.getP r) ∧ y.rkey = x.rkey ∧ y.sid = x.sid ∧ y.draw = x.draw ∧
        y.fctl = (x.fctl &&& fctlMask) ∧ y.flags = (x.flags &&& flagsMask) ∧ y.pend = [] ∧
        y.susp = x.susp.map fun f => { f with cause := f.cause % 2 ^ 15 }) ∧
      ∀ k < 32, (c.tile k).base < 2 ^ 16 → (c.tile k).bytes < 2 ^ 17 → (c.tile k).readers < 2 ^ 6 → (v.core cn).tile k = c.tile k)


/-! ### Vector words (R69, R98, R105, R108, R111 to R121, R417 to R423) -/

/-- R69, R417, R418: on integer lanes of every type VADD, VSUB and VMUL wrap, VMIN and VMAX compare by the type's sign, VABS and
VNEG of the signed types wrap, and VSH shifts and rotates by the lane counts modulo the width; a lane whose predicate bit is 0
keeps its value, and no flag is raised. -/
def Obligations.VectorIntegerLanes : Prop :=
  ∀ (s : State) (k : BitVec 1) (d a b : BitVec 4) (p : BitVec 5) (t : BitVec 4), s.alone = true → s.portless = true →
    t.toNat < 8 →
    let W := typeWidth t.toNat
    let lane (v : VWord) (i : Nat) : BitVec W := v.extractLsb' (W * i) W
    let le (u v : BitVec W) : Bool := if t.toNat < 4 then u.sle v else u.ule v
    let gives (i : Instr) (f : BitVec W → BitVec W → BitVec W) : Prop :=
      ∃ v, exec i s = .next (s.wroteV d v 0) ∧ ∀ j < 128 / W, lane v j =
        if (s.me.getP p.toNat).getLsbD j then f (lane (s.me.getV a.toNat) j) (lane (s.me.getV b.toNat) j)
        else lane (s.me.getV d.toNat) j
    gives (.vadd k d a b p t) (· + ·) ∧ gives (.vsub k d a b p t) (· - ·) ∧ gives (.vmul k d a b p t) (· * ·) ∧
    gives (.vmin k d a b p t) (fun u v => if le u v then u else v) ∧
    gives (.vmax k d a b p t) (fun u v => if le u v then v else u) ∧
    (t.toNat < 4 → gives (.vabs k d a p t) (fun u _ => if u.msb then -u else u) ∧ gives (.vneg k d a p t) (fun u _ => -u)) ∧
    gives (.vsh k d a b p t 0) (fun u v => u <<< (v.toNat % W)) ∧
    gives (.vsh k d a b p t 1) (fun u v => u >>> (v.toNat % W)) ∧
    gives (.vsh k d a b p t 2) (fun u v => u.sshiftRight (v.toNat % W)) ∧
    gives (.vsh k d a b p t 3) (fun u v => u.rotateRight (v.toNat % W))

/-- R418 to R420: VLOGIC acts on governed bytes; VSEL takes the other source where the predicate bit is 0; VSHUF permutes bytes,
zero for an index above 15; VBCAST copies a scalar to the governed lanes; VEXT reads a lane, sign-extended for the signed types;
VINS replaces one lane. -/
def Obligations.VectorMoves : Prop :=
  ∀ (s : State) (k : BitVec 1) (d a b : BitVec 4) (p : BitVec 5) (t l : BitVec 4), s.alone = true → s.portless = true →
    t.toNat ≤ 12 → l.toNat < lanesOf t.toNat →
    let W := typeWidth t.toNat
    let lane (v : VWord) (i : Nat) : BitVec W := v.extractLsb' (W * i) W
    let byte (v : VWord) (i : Nat) : BitVec 8 := v.extractLsb' (8 * i) 8
    let x := s.me.getV a.toNat
    let y := s.me.getV b.toNat
    let old := s.me.getV d.toNat
    let m := s.me.getP p.toNat
    let logic (o : BitVec 3) (f : BitVec 8 → BitVec 8 → BitVec 8) : Prop :=
      ∃ v, exec (.vlogic k d a b p o) s = .next (s.wroteV d v 0) ∧
        ∀ j < 16, byte v j = if m.getLsbD j then f (byte x j) (byte y j) else byte old j
    logic 0 (· &&& ·) ∧ logic 1 (· ||| ·) ∧ logic 2 (· ^^^ ·) ∧ logic 3 (fun u v => u &&& ~~~v) ∧
    (∃ v, exec (.vsel k d a b p t) s = .next (s.wroteV d v 0) ∧
      ∀ j < 128 / W, lane v j = if m.getLsbD j then lane x j else lane y j) ∧
    (∃ v, exec (.vshuf k d a b) s = .next (s.wroteV d v 0) ∧
      ∀ j < 16, byte v j = if 16 ≤ (byte y j).toNat then 0 else byte x (byte y j).toNat) ∧
    (∃ v, exec (.vbcast k d a p t) s = .next (s.wroteV d v 0) ∧
      ∀ j < 128 / W, lane v j = if m.getLsbD j then (s.me.getX a.toNat).setWidth W else lane old j) ∧
    exec (.vext k d a l t) s = .next (s.wroteX (d.setWidth 5)
      (if t.toNat < 4 then (lane x l.toNat).signExtend 64 else (lane x l.toNat).setWidth 64)) ∧
    (∃ v, exec (.vins k d a l t) s = .next (s.wroteV d v 0) ∧
      ∀ j < 128 / W, lane v j = if j = l.toNat then (s.me.getX a.toNat).setWidth W else lane old j)

/-- R118 to R120, R419: on integer lanes VCMP writes its condition into the governed bits of the predicate, keeps the governed-off
bits and clears the bits above the lane count; VRED leaves the sum of the lanes modulo 2^W, the smallest or the largest lane in
lane 0 and clears the others; VMACI adds the exact products of a lane group to its 32-bit accumulator, clamped at each product
with ISAT, or under .wrap modulo 2^32. -/
def Obligations.VectorIntegerSums : Prop :=
  ∀ (s : State) (k : BitVec 1) (d a b : BitVec 4) (p q : BitVec 5) (t : BitVec 4) (c : BitVec 3), s.alone = true →
    s.portless = true → t.toNat < 8 → c.toNat < 6 → q.toNat < 24 →
    let W := typeWidth t.toNat
    let lane (v : VWord) (i : Nat) : BitVec W := v.extractLsb' (W * i) W
    let val (u : BitVec W) : Int := if t.toNat < 4 then u.toInt else u.toNat
    let x := s.me.getV a.toNat
    let y := s.me.getV b.toNat
    let m := s.me.getP p.toNat
    let holds (u v : Int) : Bool :=
      [decide (u = v), decide (u ≠ v), decide (u < v), decide (v ≤ u), decide (u ≤ v), decide (v < u)].getD c.toNat false
    (∃ v : PWord, exec (.vcmp k (q.setWidth 4) a b p t c) s = .next (s.wroteP (q.setWidth 4 |>.setWidth 5) v) ∧
      ∀ j < 16, v.getLsbD j =
        if 128 / W ≤ j then false
        else if m.getLsbD j then holds (val (lane x j)) (val (lane y j))
        else (s.me.getP (q.toNat % 16)).getLsbD j) ∧
    exec (.vred k d a 0 t) s = .next (s.wroteV d
      (BitVec.ofNat 128 (((List.range (128 / W)).map fun j => (lane x j).toNat).sum % 2 ^ W)) 0) ∧
    (∃ i < 128 / W, exec (.vred k d a 1 t) s = .next (s.wroteV d ((lane x i).setWidth 128) 0) ∧
      ∀ j < 128 / W, val (lane x i) ≤ val (lane x j)) ∧
    (∃ i < 128 / W, exec (.vred k d a 2 t) s = .next (s.wroteV d ((lane x i).setWidth 128) 0) ∧
      ∀ j < 128 / W, val (lane x j) ≤ val (lane x i)) ∧
    (t.toNat % 4 < 2 →
      let low : Int := -2 ^ 31
      let high : Int := 2 ^ 31 - 1
      let acc (j : Nat) : Int × Bool := (List.range (32 / W)).foldl (fun (r : Int × Bool) i =>
        let e := r.1 + val (lane x (32 / W * j + i)) * val (lane y (32 / W * j + i))
        (max low (min high e), r.2 || decide (e < low) || decide (high < e)))
          (((s.me.getV d.toNat).extractLsb' (32 * j) 32).toInt, false)
      let sat := (List.range 4).any fun j => m.getLsbD j && (acc j).2
      (sat = false ∨ flagsTrap s.me.fctl.toNat fISAT = false) →
      ∃ v, exec (.vmaci k d a b 0 t p) s = .next (s.wroteV d v (if sat then fISAT else 0)) ∧
        ∀ j < 4, v.extractLsb' (32 * j) 32 =
          if m.getLsbD j then BitVec.ofInt 32 (acc j).1 else (s.me.getV d.toNat).extractLsb' (32 * j) 32) ∧
    (t.toNat % 4 < 2 → ∃ v, exec (.vmaci k d a b 1 t p) s = .next (s.wroteV d v 0) ∧
      ∀ j < 4, v.extractLsb' (32 * j) 32 =
        if m.getLsbD j then (s.me.getV d.toNat).extractLsb' (32 * j) 32 + BitVec.ofInt 32
          ((List.range (32 / W)).map fun i => val (lane x (32 / W * j + i)) * val (lane y (32 / W * j + i))).sum
        else (s.me.getV d.toNat).extractLsb' (32 * j) 32)

/-- R105, R106, R118, R121, R417, R419, R422, R423: on float lanes, with no arithmetic trap enabled, VADD, VSUB, VMUL, VMIN, VMAX, VFMA, VRCP,
VRSQ, VEXP2, VLOG2, VABS and VNEG give each governed lane the rounded result of its operands under FCTL.RM and FCTL.FTZ, keep the
others, and OR the flags of the governed lanes into FLAGS; VCMP writes its condition as it does on integers, and VRED combines
neighbouring lanes in a tree. That FTZ flushes each node of the tree is log 79; the values of VEXP2 and VLOG2, which the rules bound
and do not state, are the fixed-point ones of log 13. -/
def Obligations.VectorFloatLanes : Prop :=
  ∀ (s : State) (k : BitVec 1) (d a b c t : BitVec 4) (p : BitVec 5), s.alone = true → s.portless = true →
    8 ≤ t.toNat → t.toNat ≤ 10 → s.me.fctl.toNat / 2 ^ 8 % 2 ^ 6 = 0 →
    let W := typeWidth t.toNat
    let lane (v : VWord) (i : Nat) : Nat := (v.extractLsb' (W * i) W).toNat
    let rm := s.me.fctl.toNat % 4
    let ftz := s.me.fctl.getLsbD 2
    let value (r : BitVec 4) (j : Nat) : FVal := fIn t.toNat ftz (lane (s.me.getV r.toNat) j)
    let gives (i : Instr) (f : Nat → Nat × Nat) : Prop :=
      ∃ v, exec i s = .next (s.wroteV d v ((List.range (128 / W)).foldl
          (fun acc j => if (s.me.getP p.toNat).getLsbD j then acc ||| (f j).2 else acc) 0)) ∧
        ∀ j < 128 / W, lane v j =
          if (s.me.getP p.toNat).getLsbD j then (f j).1 % 2 ^ W else lane (s.me.getV d.toNat) j
    let rounded (r : FVal × Bool) : Nat × Nat :=
      let z := fPut t.toNat rm ftz .ieee r.1
      (z.1, z.2 ||| (if r.2 then fNV else 0))
    gives (.vadd k d a b p t) (fun j => rounded (exAdd rm (value a j) (value b j))) ∧
    gives (.vsub k d a b p t) (fun j => rounded (exAdd rm (value a j) (value b j).neg)) ∧
    gives (.vmul k d a b p t) (fun j => rounded (exMul (value a j) (value b j))) ∧
    gives (.vfma k d a b c t p) (fun j =>
      let z := exMul (value a j) (value b j)
      let r := exAdd rm z.1 (value c j)
      rounded (r.1, z.2 || r.2)) ∧
    gives (.vmin k d a b p t) (fun j => fMinMax false t.toNat ftz (lane (s.me.getV a.toNat) j) (lane (s.me.getV b.toNat) j)) ∧
    gives (.vmax k d a b p t) (fun j => fMinMax true t.toNat ftz (lane (s.me.getV a.toNat) j) (lane (s.me.getV b.toNat) j)) ∧
    gives (.vrcp k d a p t) (fun j => fRcp t.toNat rm ftz (lane (s.me.getV a.toNat) j)) ∧
    gives (.vrsq k d a p t) (fun j => fRsq t.toNat rm ftz (lane (s.me.getV a.toNat) j)) ∧
    gives (.vexp2 k d a p t) (fun j => fExp2 t.toNat rm ftz (lane (s.me.getV a.toNat) j)) ∧
    gives (.vlog2 k d a p t) (fun j => fLog2 t.toNat rm ftz (lane (s.me.getV a.toNat) j)) ∧
    gives (.vabs k d a p t) (fun j => signLane t.toNat ftz (lane (s.me.getV a.toNat) j) fun _ => false) ∧
    gives (.vneg k d a p t) (fun j => signLane t.toNat ftz (lane (s.me.getV a.toNat) j) fun n => !n) ∧
    (∀ c : BitVec 3, c.toNat < 6 →
      let f (j : Nat) : Bool × Nat := laneCmp t.toNat ftz c.toNat (lane (s.me.getV a.toNat) j) (lane (s.me.getV b.toNat) j)
      ∃ v : PWord, exec (.vcmp k d a b p t c) s = .next ((s.modMe fun u => u.setP d.toNat v).continuesAt
          ((List.range (128 / W)).foldl (fun acc j => if (s.me.getP p.toNat).getLsbD j then acc ||| (f j).2 else acc) 0)
          (s.cur.bundle + 4) false) ∧
        ∀ j < 16, v.getLsbD j = if 128 / W ≤ j then false
          else if (s.me.getP p.toNat).getLsbD j then (f j).1 else (s.me.getP d.toNat).getLsbD j) ∧
    (∀ o : BitVec 4, o.toNat < 3 →
      let op (x y : Nat) : Nat × Nat :=
        if o = 0 then fAdd t.toNat rm ftz x y else fMinMax (o == 2) t.toNat ftz x y
      let r := treeReduce op (if W = 32 then 2 else 3) ((List.range (128 / W)).map (lane (s.me.getV a.toNat)))
      exec (.vred k d a o t) s = .next (s.wroteV d (BitVec.ofNat 128 r.1) r.2))

/-- R111 to R115, R119, R421: VCVT converts each governed element in its mode and clears the elements above the converted ones, by
default with the rounding of R105; VDOT folds the exact products of a lane
group into its f32 accumulator in lane order, with one rounding each; that FTZ flushes each of these sums is log 79. No arithmetic
trap is enabled. -/
def Obligations.VectorConversionsAndDots : Prop :=
  ∀ (s : State) (k : BitVec 1) (d a b t u c : BitVec 4) (p : BitVec 5), s.alone = true → s.portless = true →
    s.me.fctl.toNat / 2 ^ 8 % 2 ^ 6 = 0 → t.toNat ≤ 13 → u.toNat ≤ 13 →
    let W := typeWidth t.toNat
    let V := typeWidth u.toNat
    let lane (w : Nat) (v : VWord) (i : Nat) : Nat := (v.extractLsb' (w * i) w).toNat
    let rm := s.me.fctl.toNat % 4
    let ftz := s.me.fctl.getLsbD 2
    let x := s.me.getV a.toNat
    let m := s.me.getP p.toNat
    let conv (j : Nat) : Nat × Nat := fPut u.toNat rm ftz (defaultPolicy u.toNat) (fIn t.toNat ftz (lane W x j))
    (cvtPair t.toNat u.toNat = true →
      let L := 128 / max W V
      let mode := min c.toNat 2
      let conv2 (j : Nat) : Nat × Nat := convert t.toNat u.toNat rm ftz mode (lane (128 / L) (s.me.getV c.toNat) j) (128 / L) (lane W x j)
      let on (j : Nat) : Bool := m.getLsbD (if V = 4 then j / 2 else j)
      ∃ v, exec (.vcvt k d a t c u p) s = .next (s.wroteV d v ((List.range L).foldl
          (fun acc j => if on j then acc ||| (conv2 j).2 else acc) 0)) ∧
        ∀ j < 128 / V, lane V v j = if L ≤ j then 0 else if on j then (conv2 j).1 % 2 ^ V else lane V (s.me.getV d.toNat) j) ∧
    (8 ≤ t.toNat → 8 ≤ u.toNat → u.toNat ≤ 12 → t ≠ u → ∃ v, exec (.vcvt k d a t 0 u p) s = .next (s.wroteV d v ((List.range (128 / max W V)).foldl
          (fun acc j => if m.getLsbD j then acc ||| (conv j).2 else acc) 0)) ∧
        ∀ j < 128 / V, lane V v j =
          if 128 / max W V ≤ j then 0 else if m.getLsbD j then (conv j).1 % 2 ^ V else lane V (s.me.getV d.toNat) j) ∧
    (9 ≤ t.toNat →
      let dot (j : Nat) : Nat × Nat := (List.range (32 / W)).foldl (fun (acc : Nat × Nat) i =>
        let r := fFma 8 rm ftz (fIn t.toNat ftz (lane W x (32 / W * j + i)))
          (fIn t.toNat ftz (lane W (s.me.getV b.toNat) (32 / W * j + i))) (fIn 8 ftz acc.1)
        (r.1, acc.2 ||| r.2)) (lane 32 (s.me.getV d.toNat) j, 0)
      ∃ v, exec (.vdot k d a b t p) s = .next (s.wroteV d v ((List.range 4).foldl
          (fun acc j => if m.getLsbD j then acc ||| (dot j).2 else acc) 0)) ∧
        ∀ j < 4, lane 32 v j = if m.getLsbD j then (dot j).1 % 2 ^ 32 else lane 32 (s.me.getV d.toNat) j)

/-- R108, R271: where the flags that a float word raises on its governed lanes meet an enabled trap, the bundle has no effect but the
exception 0x0D with the raised flags as FADDR, to resume after the bundle: for VADD, VSUB, VMUL, VMIN, VMAX, VFMA, VRCP, VRSQ, VEXP2,
VLOG2, VABS, VNEG, VCMP, VRED, VCVT and VDOT; so for the ISAT of VMACI. FTZ at the inner sums of VRED and VDOT is log 79. -/
def Obligations.EnabledFlagTraps : Prop :=
  ∀ (s : State) (k : BitVec 1) (d a b c t u : BitVec 4) (o : BitVec 3) (p : BitVec 5), s.alone = true → s.cur.slot ≠ 11 →
    s.portless = true →
    let W := typeWidth t.toNat
    let lane (w : Nat) (v : VWord) (j : Nat) : Nat := (v.extractLsb' (w * j) w).toNat
    let x (j : Nat) : Nat := lane W (s.me.getV a.toNat) j
    let y (j : Nat) : Nat := lane W (s.me.getV b.toNat) j
    let rm := s.me.fctl.toNat % 4
    let ftz := s.me.fctl.getLsbD 2
    let val (n : Nat) : FVal := fIn t.toNat ftz n
    let on (j : Nat) : Bool := (s.me.getP p.toNat).getLsbD j
    let lanes (n : Nat) (g : Nat → Nat) : Nat := (List.range n).foldl (fun acc j => if on j then acc ||| g j else acc) 0
    let traps (i : Instr) (f : Nat) : Prop :=
      flagsTrap s.me.fctl.toNat f = true → exec i s = .next (s.suspendedAt 0x0D (BitVec.ofNat 64 f) (s.cur.bundle + 4))
    (8 ≤ t.toNat → t.toNat ≤ 10 →
      let all (i : Instr) (g : Nat → Nat × Nat) : Prop := traps i (lanes (128 / W) fun j => (g j).2)
      all (.vadd k d a b p t) (fun j => fAdd t.toNat rm ftz (x j) (y j)) ∧
      all (.vsub k d a b p t) (fun j => fSub t.toNat rm ftz (x j) (y j)) ∧
      all (.vmul k d a b p t) (fun j => fMul t.toNat rm ftz (x j) (y j)) ∧
      all (.vmin k d a b p t) (fun j => fMinMax false t.toNat ftz (x j) (y j)) ∧
      all (.vmax k d a b p t) (fun j => fMinMax true t.toNat ftz (x j) (y j)) ∧
      all (.vfma k d a b c t p) (fun j =>
        fFma t.toNat rm ftz (val (x j)) (val (y j)) (val (lane W (s.me.getV c.toNat) j))) ∧
      all (.vrcp k d a p t) (fun j => fRcp t.toNat rm ftz (x j)) ∧ all (.vrsq k d a p t) (fun j => fRsq t.toNat rm ftz (x j)) ∧
      all (.vexp2 k d a p t) (fun j => fExp2 t.toNat rm ftz (x j)) ∧ all (.vlog2 k d a p t) (fun j => fLog2 t.toNat rm ftz (x j)) ∧
      all (.vabs k d a p t) (fun j => signLane t.toNat ftz (x j) fun _ => false) ∧
      all (.vneg k d a p t) (fun j => signLane t.toNat ftz (x j) fun n => !n) ∧
      (o.toNat < 6 → traps (.vcmp k d a b p t o) (lanes (128 / W) fun j => (laneCmp t.toNat ftz o.toNat (x j) (y j)).2)) ∧
      (o.toNat < 3 → traps (.vred k d a (o.setWidth 4) t) (treeReduce
        (fun m n => if o = 0 then fAdd t.toNat rm ftz m n else fMinMax (o == 2) t.toNat ftz m n) (if W = 32 then 2 else 3)
        ((List.range (128 / W)).map x)).2)) ∧
    (cvtPair t.toNat u.toNat = true →
      let V := typeWidth u.toNat
      let L := 128 / max W V
      traps (.vcvt k d a t c u p) ((List.range L).foldl (fun acc j =>
        if on (if V = 4 then j / 2 else j) then acc ||| (convert t.toNat u.toNat rm ftz (min c.toNat 2)
          (lane (128 / L) (s.me.getV c.toNat) j) (128 / L) (x j)).2 else acc) 0)) ∧
    (9 ≤ t.toNat → t.toNat ≤ 13 → traps (.vdot k d a b t p) (lanes 4 fun j => ((List.range (32 / W)).foldl (fun (acc : Nat × Nat) i =>
      let r := fFma 8 rm ftz (val (x (32 / W * j + i))) (val (y (32 / W * j + i))) (fIn 8 ftz acc.1)
      (r.1, acc.2 ||| r.2)) (lane 32 (s.me.getV d.toNat) j, 0)).2)) ∧
    (t.toNat < 8 → t.toNat % 4 < 2 →
      let int (n : Nat) : Int := if t.toNat < 4 then (BitVec.ofNat W n).toInt else n
      traps (.vmaci k d a b 0 t p) (lanes 4 fun j => if ((List.range (32 / W)).foldl (fun (r : Int × Bool) i =>
        let e := r.1 + int (x (32 / W * j + i)) * int (y (32 / W * j + i))
        (max (-2 ^ 31) (min (2 ^ 31 - 1) e), r.2 || decide (e < -2 ^ 31) || decide (2 ^ 31 - 1 < e)))
          (((s.me.getV d.toNat).extractLsb' (32 * j) 32).toInt, false)).2 then fISAT else 0))

/-- R19, R56, R236, R237: while the strand holds the claim, a vector source v12 to v15 takes the data entry at the head of its
port and pops it, and a destination is pushed into the neighbour's queue; an empty queue and a full one make the word wait.
CTRLV pushes a control value. A source that finds a control value at the head of its port abandons the word: the value is
popped, QCODE takes the bundle's address, the port and the value, and the strand continues at QHND. -/
def Obligations.NeighbourPorts : Prop :=
  (∀ (s : State) (k : BitVec 1) (q : BitVec 2) (b d : BitVec 4) (x : BitVec 5) (n : Nat), s.alone = true →
      isDense s.cur.cn = false → s.myCore.regs.claim = some s.cur.slot → b.toNat < 12 → d.toNat < 12 →
      let port : BitVec 4 := BitVec.ofNat 4 (12 + q.toNat)
      let other := s.core n
      let full := 8 ≤ (other.queue (opposite q.toNat)).length
      let pushed (e : QEntry) : State := s.modCore n fun c => { c with
        queues := c.queues.setIfInBounds (opposite q.toNat) (c.queue (opposite q.toNat) ++ [e]) }
      neighbour s.cur.cn q.toNat = some n →
      (∀ e r, s.myCore.queue q.toNat = e :: r → e.tag = false →
        exec (.vlogic k d port b 31 1) s = .next
          ((s.modMyCore fun c => { c with queues := c.queues.setIfInBounds q.toNat r }).wroteV d (e.val ||| s.me.getV b.toNat) 0)) ∧
      (s.myCore.queue q.toNat = [] → exec (.vlogic k d port b 31 1) s = .next (s.setEnding .waiting)) ∧
      (¬ full → exec (.vlogic k port b b 31 1) s = .next (pushed { tag := false, val := s.me.getV b.toNat }).thenNext) ∧
      (¬ full → exec (.ctrlv k q x) s = .next
        (pushed { tag := true, val := BitVec.ofNat 128 ((s.me.getX x.toNat).toNat % 256) }).thenNext) ∧
      (full → exec (.vlogic k port b b 31 1) s = .next (s.setEnding .waiting) ∧
        exec (.ctrlv k q x) s = .next (s.setEnding .waiting))) ∧
  (∀ (s : State) (k : BitVec 1) (q : BitVec 2) (b d : BitVec 4) (n : Nat) (e : QEntry) (r : List QEntry), s.alone = true →
      isDense s.cur.cn = false → s.myCore.regs.claim = some s.cur.slot → b.toNat < 12 → d.toNat < 12 →
      neighbour s.cur.cn q.toNat = some n → s.myCore.queue q.toNat = e :: r → e.tag = true →
      s.myCore.regs.qhnd.toNat % 2 ^ 56 ≠ 0 → s.myCore.regs.qhnd.toNat % 4 = 0 →
      ∃ t, exec (.vlogic k d (BitVec.ofNat 4 (12 + q.toNat)) b 31 1) s = .next t ∧ t.myCore.queue q.toNat = r ∧
        t.myCore.regs.qcode = BitVec.ofNat 64
          (s.cur.bundle.toNat / 4 * 2 ^ 10 + q.toNat * 2 ^ 8 + e.val.toNat % 256) ∧
        t.me.pc = s.myCore.regs.qhnd.setWidth 56 ∧ t.me.v = s.me.v ∧ t.me.x = s.me.x ∧ t.me.flags = s.me.flags ∧ t.mem = s.mem)

/-- R39, R61, R257: the words of a bundle read their registers before any of them writes: two ORs in one bundle take the old values
of all their sources, and the strand continues after both words. Two scalar words take two turns, of which the second changes no
register. In an exposed region the product of MUL reaches its register only after two more turns of the strand: the word completes
with the write pending. -/
def Obligations.BundlesAndExposedWrites : Prop :=
  (∀ (s : State) (cn slot : Nat) (pc : Addr) (u v : IWord) (k l : BitVec 1) (d a b e f g : BitVec 5),
      slot < 12 → (s.strand cn slot).susp = none → (s.strand cn slot).mid = none → (s.strand cn slot).pend = [] →
      (s.strand cn slot).rest = [] → (s.core cn).regs.exposed = false →
      decodeWord u = .ok (.or k d a b 0) → decodeWord v = .ok (.or l e f g 0) → d ≠ e →
      ∃ r tn, bundleMany exec s cn slot pc [u, v] [wordUses u, wordUses v] = .next r ∧ r.took = true ∧ r.done = false ∧
        let x (i : BitVec 5) := (s.strand cn slot).getX i.toNat
        (∀ i : BitVec 5, (r.st.strand cn slot).getX i.toNat =
          if i = 0 then 0 else if i = d then x a ||| x b else if i = e then x f ||| x g else x i) ∧
        (r.st.strand cn slot).pc = pc + 8 ∧ (r.st.strand cn slot).v = (s.strand cn slot).v ∧ r.st.mem = s.mem ∧
        (r.st.strand cn slot).rest = [tn] ∧
        ∃ o, laterTurn exec r.st cn slot tn [] = .next o ∧ o.took = true ∧ o.done = true ∧ (o.st.strand cn slot).rest = [] ∧
          (∀ i : BitVec 5, (o.st.strand cn slot).getX i.toNat = (r.st.strand cn slot).getX i.toNat) ∧
          (o.st.strand cn slot).pc = pc + 8 ∧ o.st.mem = s.mem) ∧
  (∀ (s : State) (k w : BitVec 1) (d a b : BitVec 5), s.cur.multi = false → s.cur.spread = false → s.cur.src = none → s.cur.target = none →
      s.cur.len = 1 → s.cur.slot < 12 → s.me.susp = none → s.myCore.regs.exposed = true → d ≠ 0 →
      let x := s.me.getX a.toNat * s.me.getX b.toNat
      let v : Word := if w = 1 then low32 x else x
      exec (.mul k d a b w) s = .next (s.modMe fun t => { t with
        pend := t.pend ++ [{ reg := .x d.toNat, rid := s.cur.since, val := some (v.setWidth 128), turns := some 2 }] }).thenNext)

/-! ### Generator and histogram (R124 to R126, R260 to R264) -/

/-- R263: RSKIP adds X[a] to DRAWCTR modulo 2^64 in either mode, and with X[a] = 0 has no effect. -/
def Obligations.RskipAdvances : Prop :=
  ∀ (s : State) (k : BitVec 1) (a : BitVec 5), s.alone = true →
    exec (.rskip k a) s = .next (s.modMe fun u => { u with draw := u.draw + s.me.getX a.toNat }).thenNext ∧
    (s.me.getX a.toNat = 0 → exec (.rskip k a) s = .next s.thenNext)

/-- R260, R262, R264: RAND writes Philox(RKEY, SID ∥ DRAWCTR) and advances DRAWCTR; RSTRM sets SID and RKEY and clears DRAWCTR,
which a user-mode strand may do only with its own key and its own SID[63:32]. -/
def Obligations.RandomDraws : Prop :=
  ∀ (s : State) (k : BitVec 1) (d : BitVec 4) (a b : BitVec 5), s.alone = true → s.portless = true → s.cur.slot ≠ 11 →
    let x := s.me.getX a.toNat
    let y := s.me.getX b.toNat
    exec (.rand k d) s = .next (((s.modMe fun u => u.setV d.toNat (BitVec.ofNat 128
      (philox u.rkey.toNat (u.sid.toNat * 2 ^ 64 + u.draw.toNat)))).modMe fun u => { u with draw := u.draw + 1 }).thenNext) ∧
    exec (.rstrm k a b) s = .next (
      if s.me.sup = false ∧ ¬ (y = s.me.rkey ∧ x.toNat / 2 ^ 32 = s.me.sid.toNat / 2 ^ 32) then s.suspendedAt 0x03 0 s.cur.bundle
      else (s.modMe fun u => { u with sid := x, rkey := y, draw := 0 }).thenNext)

/-- R124 to R126: on a dense sequencer QHIST adds each governed finite non-zero lane to the bin of its clamped exponent and each
infinity to bin 63, up to the bin's 32 bits; QSCALE gives 1.0 for an empty histogram and otherwise the power of two that places the
chosen exponent in the top binade of its type; QHCLR clears the bins. -/
def Obligations.HistogramWords : Prop :=
  ∀ (s : State) (k : BitVec 1) (a d : BitVec 4) (p : BitVec 5) (t : BitVec 4), s.alone = true → isDense s.cur.cn = true →
    let W := typeWidth t.toNat
    let bin (j : Nat) : Option Nat :=
      match fDec t.toNat ((s.me.getV a.toNat).extractLsb' (W * j) W).toNat with
      | .nan _ => none
      | .inf _ => some 63
      | .fin _ m e => if m = 0 then none else some (min 63 (max 0 (e + Nat.log2 m + 32)).toNat)
    let count (i : Nat) : Nat := s.myCore.hist[i]?.getD 0
    let upTo (b : Nat) : Nat := ((List.range (b + 1)).map count).sum
    let part := upTo 63 * ((s.me.getX a.toNat).toNat % 256 + 1)
    let emax := if t = 11 then 8 else if t = 12 then 15 else 2
    (8 ≤ t.toNat → t.toNat ≤ 12 → (∀ i < 64, count i < 2 ^ 32) →
      ∃ u, exec (.qhist k a p t) s = .next u ∧ s.keeps u [] ∧ u.me.pc = s.cur.bundle + 4 ∧ ∀ i < 64, u.myCore.hist[i]?.getD 0 =
        min (2 ^ 32 - 1) (count i + (List.range (128 / W)).countP fun j => (s.me.getP p.toNat).getLsbD j && bin j == some i)) ∧
    (11 ≤ t.toNat → t.toNat ≤ 13 →
      (upTo 63 = 0 → exec (.qscale k d a t) s = .next (s.wroteX (d.setWidth 5) 0x3F800000)) ∧
      (∀ b < 64, upTo 63 ≠ 0 → part ≤ 256 * upTo b → (∀ j < b, 256 * upTo j < part) →
        exec (.qscale k d a t) s = .next (s.wroteX (d.setWidth 5) (BitVec.ofNat 64 ((b + 95 - emax) * 2 ^ 23))))) ∧
    exec .qhclr s = .next (s.modMyCore fun c => { c with hist := .replicate 64 0 })

/-! ### System registers (R57, R235, R276, R394, R426) -/

/-- R57, R394: RSYS reads the register that its number names, by the table of R57, in both modes but for the supervisor-only ones;
a number of no register raises cause 0x01, and a supervisor-only register in user mode cause 0x03. The numbers of no register are
those above 0x070 and the gaps of the table. -/
def Obligations.SystemRegisterReads : Prop :=
  ∀ (s : State) (k : BitVec 1) (d : BitVec 5) (n : BitVec 12), s.alone = true → s.cur.slot ≠ 11 → s.cur.part = none →
    let r := s.myCore.regs
    let p := s.partFor s.cur.cn
    let bit (b : Bool) : Word := if b then 1 else 0
    let word (x : Nat) : Word := BitVec.ofNat 64 x
    let plain : List (Nat × Word) := [(0x000, s.me.fctl), (0x001, s.me.flags), (0x002, s.me.rkey), (0x003, s.me.sid),
      (0x004, s.me.draw), (0x005, word (p.vsel.sel * 2 ^ 48 + (if p.vsel.follow then 2 ^ 16 else 0) + p.vsel.ver)),
      (0x006, word (s.cur.slot + if s.me.sup then 16 else 0)), (0x007, word s.cur.cn),
      (0x008, match s.partOf? s.cur.cn with | some q => word (q + p.key * 2 ^ 16) | none => 0), (0x009, word s.cycle),
      (0x00A, bit r.lost + word (r.lostCnt * 2 ^ 16)), (0x010, match r.claim with | some i => word (16 + i) | none => 0),
      (0x011, r.qhnd), (0x012, r.qcode), (0x013, 0), (0x024, r.htab), (0x025, r.fhnd), (0x026, r.wdog), (0x028, r.ctxbase),
      (0x050, r.bdtab), (0x051, r.sltab), (0x062, p.alist), (0x070, bit r.exposed)]
    let guarded : List (Nat × Word) := [(0x020, r.cause), (0x021, r.faddr), (0x022, r.fpc), (0x023, r.fslot),
      (0x027, bit p.stop + 2 * bit p.saved), (0x060, p.ptroot), (0x061, p.fpool)]
    (∀ e ∈ plain, n.toNat = e.1 → exec (.rsys k d n) s = .next (s.wroteX d e.2)) ∧
    (∀ i < 16, n.toNat = 0x030 + i → exec (.rsys k d n) s = .next (s.wroteX d (r.perm[i]?.getD 0))) ∧
    (n.toNat = 0x052 → s.myCore.phase = none → exec (.rsys k d n) s = .next (s.wroteX d 0)) ∧
    (∀ q, n.toNat = 0x052 → s.myCore.phase = some q → exec (.rsys k d n) s = .next (s.wroteX d (word (q.f * 2 ^ 10 + q.dom * 2 ^ 2 +
      if q.b + 16 ≤ s.cycle then 1 + (s.cycle - q.b - 16) * 2 ^ 14 else 0)))) ∧
    (∀ e ∈ guarded, n.toNat = e.1 → exec (.rsys k d n) s = .next
      (if s.me.sup then s.wroteX d e.2 else s.suspendedAt 0x03 0 s.cur.bundle)) ∧
    (∀ i < 7, n.toNat = 0x040 + i → exec (.rsys k d n) s = .next
      (if s.me.sup then s.wroteX d (p.hg[i]?.getD 0) else s.suspendedAt 0x03 0 s.cur.bundle)) ∧
    (0x070 < n.toNat ∨ (0x00B ≤ n.toNat ∧ n.toNat ≤ 0x00F) ∨ (0x014 ≤ n.toNat ∧ n.toNat ≤ 0x01F) ∨
      (0x029 ≤ n.toNat ∧ n.toNat ≤ 0x02F) ∨ (0x047 ≤ n.toNat ∧ n.toNat ≤ 0x04F) ∨ (0x053 ≤ n.toNat ∧ n.toNat ≤ 0x05F) ∨
      (0x063 ≤ n.toNat ∧ n.toNat ≤ 0x06F) → exec (.rsys k d n) s = .next (s.suspendedAt 0x01 0 s.cur.bundle))

/-- R46, R57, R103, R104, R124, R233, R235, R276, R279, R426: WSYS writes each writable register of R57 within its width and leaves
each read-only one as it is; a handler table that is misaligned or leaves the scratchpad, a claim on a dense sequencer and ports
that another strand has claimed, or whose claim its bundle is about to write (R39), are refused; a number of no register raises cause 0x01 and a supervisor-only register in user mode
cause 0x03. The writes with a row of their own (QCFG, QHCLR, WDOG) do the same. -/
def Obligations.SystemRegisterWrites : Prop :=
  ∀ (s : State) (k : BitVec 1) (a : BitVec 5) (n : BitVec 12), s.alone = true → s.cur.slot ≠ 11 → s.cur.part = none →
    let v := s.me.getX a.toNat
    let regs (f : CoreRegs → CoreRegs) : State := s.modMyCore fun c => { c with regs := f c.regs }
    let wrote (t : State) : Prop := exec (.wsys k a n) s = .next t.thenNext
    let trap (c : Nat) : Prop := exec (.wsys k a n) s = .next (s.suspendedAt c 0 s.cur.bundle)
    let claimed : Option Nat := if v.getLsbD 4 then some s.cur.slot else none
    let free : Prop := (s.myCore.regs.claim = none ∨ s.myCore.regs.claim = some s.cur.slot) ∧
      ∀ i < 12, i ≠ s.cur.slot → (s.myCore.strand i).claims = false
    let cleared : State := if isDense s.cur.cn then s.modMyCore fun c => { c with hist := .replicate 64 0 } else s
    (n.toNat = 0x000 → wrote (s.modMe fun u => { u with fctl := v &&& 0xFF07 })) ∧
    (n.toNat = 0x001 → wrote (s.modMe fun u => { u with flags := v &&& 0xFF })) ∧
    (n.toNat = 0x010 → (v.getLsbD 4 = true → isDense s.cur.cn = false) → free → wrote (regs fun r => { r with claim := claimed })) ∧
    (n.toNat = 0x010 → v.getLsbD 4 = true → isDense s.cur.cn = true → trap 0x01) ∧
    (n.toNat = 0x010 → (v.getLsbD 4 = true → isDense s.cur.cn = false) → ¬ free →
      exec (.wsys k a n) s = .next (s.suspendedAt 0x07 s.openAddr s.cur.bundle)) ∧
    (n.toNat = 0x011 → wrote (regs fun r => { r with qhnd := v })) ∧
    (n.toNat = 0x013 → wrote cleared) ∧
    (n.toNat ∈ [0x005, 0x006, 0x007, 0x008, 0x009, 0x012, 0x052, 0x070] → wrote s) ∧
    (s.me.sup = true →
      (n.toNat = 0x002 → wrote (s.modMe fun u => { u with rkey := v })) ∧
      (n.toNat = 0x003 → wrote (s.modMe fun u => { u with sid := v })) ∧
      (n.toNat = 0x004 → wrote (s.modMe fun u => { u with draw := v })) ∧
      (n.toNat = 0x00A → wrote (regs fun r => { r with lost := r.lost && !v.getLsbD 0, lostCnt := v.toNat / 2 ^ 16 % 2 ^ 16 })) ∧
      (n.toNat = 0x024 → v.toNat % 8 = 0 → v.toNat % 2 ^ 16 + 128 ≤ 0x10000 →
        wrote (regs fun r => { r with htab := v &&& 0x800000000000FFFF })) ∧
      (n.toNat = 0x024 → v.toNat % 8 ≠ 0 ∨ 0x10000 < v.toNat % 2 ^ 16 + 128 →
        exec (.wsys k a n) s = .next (s.suspendedAt 0x07 s.openAddr s.cur.bundle)) ∧
      (n.toNat = 0x025 → wrote (regs fun r => { r with fhnd := v })) ∧
      (n.toNat = 0x026 → wrote (regs fun r => { r with wdog := v &&& 0xFFFFFFFF })) ∧
      (n.toNat = 0x027 → wrote (if v.getLsbD 0 then s.modPart (s.partNo s.cur.cn) fun x =>
        if x.status = .running then { x with status := .stopping, stop := true } else x else s)) ∧
      (n.toNat = 0x028 → wrote (regs fun r => { r with ctxbase := v })) ∧
      (∀ i < 16, n.toNat = 0x030 + i → wrote (regs fun r => { r with perm := r.perm.setIfInBounds i v })) ∧
      (n.toNat = 0x050 → wrote (regs fun r => { r with bdtab := v })) ∧
      (n.toNat = 0x051 → wrote (regs fun r => { r with sltab := v })) ∧
      (n.toNat = 0x062 → wrote (s.modPart (s.partNo s.cur.cn) fun p => { p with alist := v &&& 0xFFFFFFFFFFFFFFE0 })) ∧
      (n.toNat ∈ [0x020, 0x021, 0x022, 0x023, 0x040, 0x041, 0x042, 0x043, 0x044, 0x045, 0x046, 0x060, 0x061] → wrote s)) ∧
    (s.me.sup = false → n.toNat ∈ [0x002, 0x003, 0x004, 0x00A, 0x050, 0x051, 0x060, 0x061, 0x062] ∨
      (0x020 ≤ n.toNat ∧ n.toNat ≤ 0x028) ∨ (0x030 ≤ n.toNat ∧ n.toNat ≤ 0x046) → trap 0x03) ∧
    (0x070 < n.toNat ∨ (0x00B ≤ n.toNat ∧ n.toNat ≤ 0x00F) ∨ (0x014 ≤ n.toNat ∧ n.toNat ≤ 0x01F) ∨
      (0x029 ≤ n.toNat ∧ n.toNat ≤ 0x02F) ∨ (0x047 ≤ n.toNat ∧ n.toNat ≤ 0x04F) ∨ (0x053 ≤ n.toNat ∧ n.toNat ≤ 0x05F) ∨
      (0x063 ≤ n.toNat ∧ n.toNat ≤ 0x06F) → trap 0x01) ∧
    (isDense s.cur.cn = false → free → exec .qcfgClaim s = .next (regs fun r => { r with claim := some s.cur.slot })) ∧
    (free → exec .qcfgRelease s = .next (regs fun r => { r with claim := none })) ∧
    exec .qhclr s = .next cleared ∧
    exec (.wdogWrite v) s = .next (regs fun r => { r with wdog := v &&& 0xFFFFFFFF })


/-! ### Loads, stores and atomics (R68, R116, R147, R166, R179, R226, R322, R324, R332, R366, R369, R370, R406, R407) -/

/-- R366, R369: LD and LDA ask the home that their address names for its bytes, and their destination takes the reply; LDA makes
the strand wait for it. A near copy may serve LD at once. -/
def Obligations.ScalarLoads : Prop :=
  ∀ (s t : State) (k : BitVec 1) (d a : BitVec 5) (z e : BitVec 3) (h : BitVec 2) (o : BitVec 10) (f : BitVec 7) (g : Target),
    s.alone = true → z.toNat < 7 →
    let n := [1, 2, 4, 8, 1, 2, 4].getD z.toNat 0
    let va (m : Word) : Word := s.me.getX a.toNat + m * BitVec.ofNat 64 n
    let plain (v : Word) : Prop := v.toNat % n = 0 ∧ s.resolve (s.access true false) v n = (.ok g, t) ∧ g.win = 0 ∧
      g.isMcast = false ∧ ((∀ p q, g.home ≠ .dev p q) ∨ n = 8)
    let regs : List Reg := if d = 0 then [] else [.x d.toNat]
    (plain (va (o.signExtend 64)) →
      exec (.ld k d a z h o) s = .next (match t.nearHit g n h.toNat with
        | (none, u) =>
          ((u.accesses g.home (.load n 0 z.toNat h.toNat) (va (o.signExtend 64)) none).promises u.nextRid regs).thenNext
        | (some bs, u) =>
          u.wroteX d (BitVec.ofNat 64 (if z.toNat < 3 then (sextW (leNat bs) (8 * n)).toNat else leNat bs % 2 ^ (8 * n))))) ∧
    (plain (va (f.signExtend 64)) →
      exec (.lda k d a z e f) s = .next
        ((((t.accesses g.home (.loadAcq n z.toNat e.toNat) (va (f.signExtend 64)) none).promises t.nextRid regs).modMe fun u =>
          { u with await := some t.nextRid }).thenNext))

/-- R172, R226, R406, R407: ST and STL send the low bytes of X[d] to the home that their address names; in an open exchange phase
a store to another core departs in its armed slot, or raises cause 0x09; a store to a multicast address goes to every member; one
that may not be raises cause 0x07: through a multicast address of another domain, or, at once, at a locked handler table of its own
core (log 27; the table of another core judges the store when it arrives). -/
def Obligations.ScalarStores : Prop :=
  ∀ (s t : State) (k : BitVec 1) (d a : BitVec 5) (z e : BitVec 3) (h : BitVec 2) (o : BitVec 10) (f : BitVec 7) (g : Target),
    s.alone = true → s.cur.slot ≠ 11 → z.toNat < 7 →
    let n := [1, 2, 4, 8, 1, 2, 4].getD z.toNat 0
    let va (m : Word) : Word := s.me.getX a.toNat + m * BitVec.ofNat 64 n
    let plain (v : Word) : Prop := v.toNat % n = 0 ∧ s.resolve (s.access false true) v n = (.ok g, t) ∧ g.win = 0 ∧
      ((∀ p q, g.home ≠ .dev p q) ∨ n = 8)
    let bs := leBytes n (s.me.getX d.toNat).toNat
    let v := va (o.signExtend 64)
    let w := va (f.signExtend 64)
    (plain v → t.stranger g = false → (g.home.own s.cur.cn = true → t.lockRefuses s.me.sup g.home n = false) → g.isMcast = false →
      exec (.st k d a z h o) s = (match if g.exchanged s.cur.cn then t.leave 1 else .free with
        | .free => .next (t.accesses g.home (.store bs h.toNat false) v none).thenNext
        | .armed _ c => .next ((t.modMe fun u => { u with arm := none }).asks
            ((t.modMe fun u => { u with arm := none }).wordRequest g.home (.store bs h.toNat false) v none (some c) none)).thenNext
        | .violation x => .next (s.suspendedAt 0x09 x s.cur.bundle))) ∧
    (∀ die dom off, plain v → g.home = .mcast die dom off → g.isMcast = true → t.stranger g = false → s.myCore.phase = none →
      exec (.st k d a z h o) s = .next ((t.mcastMembers s.cur.cn die dom).foldl (fun u cn =>
        u.accesses (.scratch cn off) (.store bs h.toNat true) v none) t).thenNext) ∧
    (plain v → t.stranger g = true ∨ (g.home.own s.cur.cn = true ∧ t.lockRefuses s.me.sup g.home n = true ∧
        (g.exchanged s.cur.cn = true → ∀ x, t.leave 1 ≠ .violation x)) →
      exec (.st k d a z h o) s = .next (s.suspendedAt 0x07 v s.cur.bundle)) ∧
    (plain w → g.isMcast = false → (g.home.own s.cur.cn = true → t.lockRefuses s.me.sup g.home n = false) →
      exec (.stl k d a z e f) s = .next (
        if s.releaseWaits s.cur.cn s.cur.slot e.toNat then s.setEnding .waiting
        else (t.accesses g.home (.store bs 3 false) w none).thenNext))

/-- R226, R322, R324, R332: AMO and CAS send one operation to the home of their address, and X[d], or the pair from X[d] for 16
bytes, takes the old value; with d = 0 it is discarded. At a locked handler table of its own core one in user mode raises cause 0x07
(log 27). -/
def Obligations.AtomicsAreSent : Prop :=
  ∀ (s t : State) (k r : BitVec 1) (d a : BitVec 5) (z f : BitVec 3) (q : BitVec 2) (op : BitVec 4) (g : Target),
    s.alone = true → s.cur.slot ≠ 11 →
    let n := [1, 2, 4, 8, 1, 2, 4, 16].getD z.toNat 0
    let v : Word := s.me.getX a.toNat + f.signExtend 64 * BitVec.ofNat 64 n
    let x (i : Nat) : Nat := (s.me.getX (d.toNat + i)).toNat
    let val (i : Nat) : Nat := if n = 16 then x (2 * i) + x (2 * i + 1) * 2 ^ 64 else x i % 2 ^ (8 * n)
    let regs : List Reg := if d = 0 then [] else if n = 16 then [.x d.toNat, .x (d.toNat + 1)] else [.x d.toNat]
    let og := if r = 1 then some q.toNat else none
    let sends (o : ReqOp) : Host.Outcome State Fault Refusal :=
      match if g.exchanged s.cur.cn then t.leave 1 else .free with
      | .free => .next ((t.accesses g.home o v og).promises t.nextRid regs).thenNext
      | .armed _ c =>
        let u := t.modMe fun w => { w with arm := none }
        .next ((u.asks (u.wordRequest g.home o v og (some c) none)).promises t.nextRid regs).thenNext
      | .violation y => .next (s.suspendedAt 0x09 y s.cur.bundle)
    v.toNat % n = 0 → s.resolve (s.access true true) v n = (.ok g, t) → g.win = 0 → g.isMcast = false →
    (∀ x y, g.home ≠ .dev x y) →
    ((g.home.own s.cur.cn = true → t.lockRefuses s.me.sup g.home n = false) →
      exec (.amo k d a z op r q f) s = sends (.amo n op.toNat (val 0)) ∧
      exec (.cas k d a z r q f) s = sends (.cas n (val 0) (val 1))) ∧
    (g.home.own s.cur.cn = true → t.lockRefuses s.me.sup g.home n = true → g.exchanged s.cur.cn = false →
      exec (.amo k d a z op r q f) s = .next (s.suspendedAt 0x07 v s.cur.bundle) ∧
      exec (.cas k d a z r q f) s = .next (s.suspendedAt 0x07 v s.cur.bundle))

/-- R116, R370, R406: LDV and STV move the raw bytes of their window, 16 through window 0; the register takes the widened value
when the reply comes, and the narrowed lanes leave with their flags. -/
def Obligations.VectorLoadsAndStores : Prop :=
  ∀ (s t : State) (k : BitVec 1) (d : BitVec 4) (a : BitVec 5) (h : BitVec 2) (o : BitVec 10) (g : Target),
    s.alone = true → s.portless = true →
    let v : Word := s.me.getX a.toNat + o.signExtend 64 * 16
    let bs := windowStore g.win (s.me.getV d.toNat)
    v.toNat % 4 = 0 → v.toNat % windowBytes g.win = 0 → g.isMcast = false → (∀ x y, g.home ≠ .dev x y) →
    (s.resolve (s.access true false) v 16 = (.ok g, t) →
      exec (.ldv k d a h o) s = .next (match t.nearHit g (windowBytes g.win) h.toNat with
        | (none, u) => ((u.accesses g.home (.load (windowBytes g.win) g.win 7 h.toNat) v none).promises
            u.nextRid [.v d.toNat]).thenNext
        | (some raw, u) => u.wroteV d (if g.win = 0 then BitVec.ofNat 128 (leNat raw) else windowLoad g.win raw) 0)) ∧
    (s.resolve (s.access false true) v 16 = (.ok g, t) →
      (g.home.own s.cur.cn = true → t.lockRefuses s.me.sup g.home bs.1.length = false) → g.exchanged s.cur.cn = false ∨ s.myCore.phase = none → t.stranger g = false → flagsTrap s.me.fctl.toNat bs.2 = false →
      exec (.stv k d a h o) s = .next ((t.accesses g.home (.store bs.1 h.toNat false) v none).continuesAt bs.2
        (s.cur.bundle + 4) false))

/-- R147, R172, R285, R323, R366, R370: an untranslated address names the core's own scratchpad, an address above 2^56 none; a
misaligned address raises 0x04, and a failing translation its own cause, with FADDR the address, for LD, LDA, ST, STL, AMO, CAS, LDV
and STV; no request is sent. A page walk that meets a poisoned line stops the partition with the storage address in the record
(log 65); one that meets a line its home holds is waited for. An access of another size than 8 bytes to region 0xF is misaligned, and
so is a vector access that the window of its address does not hold, where the walk does not fail first (log 23). -/
def Obligations.AccessFaults : Prop :=
  ∀ (s : State) (k r : BitVec 1) (d a : BitVec 5) (v : BitVec 4) (z e f : BitVec 3) (q h : BitVec 2) (op : BitVec 4)
    (o : BitVec 10) (l : BitVec 7), s.alone = true → s.cur.slot ≠ 11 →
    let x := s.me.getX a.toNat
    let n := [1, 2, 4, 8, 1, 2, 4, 16].getD z.toNat 0
    let va (m : Word) : Word := x + m * BitVec.ofNat 64 n
    let at16 : Word := x + o.signExtend 64 * 16
    let u := va (o.signExtend 64)
    let w := va (l.signExtend 64)
    let y := va (f.signExtend 64)
    let misaligned (p : Word) (i : Instr) : Prop := p.toNat % n ≠ 0 → exec i s = .next (s.suspendedAt 0x04 p s.cur.bundle)
    let addr (c : Nat) (p : Word) : Word := if c = 0x03 then 0 else p
    let fails (rd wr : Bool) (p : Word) (i : Instr) : Prop := ∀ c t, p.toNat % n = 0 →
      s.resolve (s.access rd wr) p n = (.error c, t) →
      exec i s = .next (if c = 0x07 ∧ n ≠ 8 ∧ s.deviceSpace rd wr p = true then s.suspendedAt 0x04 p s.cur.bundle
        else s.refusedAt c (addr c p))
    let failsV (rd wr : Bool) (i : Instr) : Prop := ∀ c t, at16.toNat % 4 = 0 →
      s.resolve (s.access rd wr) at16 16 = (.error c, t) →
      exec i s = .next (if walkFails c then s.refusedAt c at16
        else if at16.toNat % s.vectorBytes rd wr at16 ≠ 0 ∨ c = 0x07 ∧ s.deviceSpace rd wr at16 = true
        then s.suspendedAt 0x04 at16 s.cur.bundle
        else s.refusedAt c (addr c at16))
    (∀ (acc : Access) (w : Word) (m : Nat),
      (w.toNat < 0x80000 → s.resolve acc w m = (.ok { home := .scratch acc.cn (w.toNat % 2 ^ 16), win := w.toNat / 2 ^ 16, region := 16
                                                      pa := w.toNat, pol := 0, hf := 0 }, s)) ∧
      (2 ^ 56 ≤ w.toNat → s.resolve acc w m = (.error 0x07, s))) ∧
    misaligned u (.ld k d a z h o) ∧ misaligned u (.st k d a z h o) ∧ misaligned w (.lda k d a z e l) ∧ misaligned w (.stl k d a z e l) ∧
    misaligned y (.amo k d a z op r q f) ∧ misaligned y (.cas k d a z r q f) ∧
    (s.portless = true → at16.toNat % 4 ≠ 0 →
      exec (.ldv k v a h o) s = .next (s.suspendedAt 0x04 at16 s.cur.bundle) ∧
      exec (.stv k v a h o) s = .next (s.suspendedAt 0x04 at16 s.cur.bundle)) ∧
    fails true false u (.ld k d a z h o) ∧ fails false true u (.st k d a z h o) ∧ fails true false w (.lda k d a z e l) ∧
    fails false true w (.stl k d a z e l) ∧
    (∀ c t, y.toNat % n = 0 → s.resolve (s.access true true) y n = (.error c, t) →
      exec (.amo k d a z op r q f) s = .next (s.refusedAt c (addr c y)) ∧
      exec (.cas k d a z r q f) s = .next (s.refusedAt c (addr c y))) ∧
    (s.portless = true → failsV true false (.ldv k v a h o) ∧ failsV false true (.stv k v a h o))

/-- R166, R179, R322, R332, R366, R406: a request that reaches a scratchpad: a load gives its bytes, extended by the size code, to
the pending register; a store, an AMO and a CAS change exactly their bytes; the old value goes to the pending register. A
user-mode store to a locked handler table writes nothing: its strand is refused with cause 0x07 and the address, and is suspended with
the store's bundle in FPC, at once where it stands between two bundles (log 27). A load of regions 0x0 to 0x2 gives the bytes of the
line in its home's L2 slice, or of storage, and under the normal policies brings the line in; a store changes its bytes of the line
and marks them dirty, makes its core the owner of the words, sends every former owner a loss notice, and with none to wait for leaves
owned copies in the near cache of a core that is not the home (R134, R140, R142, R169). -/
def Obligations.AccessesAtHomes : Prop :=
  (∀ (s : State) (i : Nat) (r : Req) (cn off : Nat) (p : Pend), s.canPerform i = true → s.net[i]? = some r →
    r.home = .scratch cn off → s.quarantined cn = false → s.mem.wf = true → r.slot < 12 → (s.strand r.src r.slot).pend = [p] → p.rid = r.rid →
    p.val = none →
    let at_ := scratchKey cn off
    let old (n : Nat) : Nat := leNat (s.mem.readN at_ n)
    let gives (v : BitVec 128) : State := (s.dropReq i).modStrand r.src r.slot fun u => { u with pend := [{ p with val := some v }] }
    let only (t : State) (bs : List Byte) : Prop := t.l2 = s.l2 ∧ t.net = s.net.eraseIdx i ∧
      ∀ a, t.mem.read a = if at_ ≤ a ∧ a < at_ + bs.length then bs.getD (a - at_) 0 else s.mem.read a
    (∀ n sz hint, r.op = .load n 0 sz hint → n < 16 →
      exec (.homeAccess i) s = .next (gives (BitVec.ofNat 128
        (if sz < 3 then (sextW (old n) (8 * n)).toNat else old n % 2 ^ (8 * n))))) ∧
    (∀ n, r.op = .load n 0 7 0 → n = 16 → exec (.homeAccess i) s = .next (gives (BitVec.ofNat 128 (old 16)))) ∧
    (∀ bs hint, r.op = .store bs hint false → s.lockRefuses r.sup r.home bs.length = false →
      ∃ t, exec (.homeAccess i) s = .next t ∧ only t bs ∧ t.cores = s.cores) ∧
    (∀ bs hint, r.op = .store bs hint false → s.lockRefuses r.sup r.home bs.length = true → (s.part r.part).status ≠ .fatal →
      (s.strand r.src r.slot).live = true → (s.strand r.src r.slot).refusal = none → r.slot ≠ 11 →
      let fault : FaultRec := { cause := 0x07, faddr := r.va, fpc := r.fpc }
      ∃ t, exec (.homeAccess i) s = .next t ∧ t.mem = s.mem ∧ t.l2 = s.l2 ∧
        if (s.strand r.src r.slot).inEntry = false ∧ (s.strand r.src r.slot).between = true
        then (t.strand r.src r.slot).susp = some fault
        else (t.strand r.src r.slot).refusal = some fault ∧ (t.strand r.src r.slot).susp = (s.strand r.src r.slot).susp) ∧
    (∀ n op v, r.op = .amo n op v → n < 16 → 1 ≤ n → s.lockRefuses r.sup r.home n = false →
      let o := BitVec.ofNat (8 * n) (old n)
      let w := BitVec.ofNat (8 * n) v
      let new : BitVec (8 * n) := match op with
        | 0 => o + w
        | 1 => o &&& w
        | 2 => o ||| w
        | 3 => o ^^^ w
        | 4 => if o.slt w then o else w
        | 5 => if o.slt w then w else o
        | 6 => if o.ult w then o else w
        | 7 => if o.ult w then w else o
        | _ => w
      v < 2 ^ (8 * n) → ∃ t, exec (.homeAccess i) s = .next t ∧ only t (leBytes n new.toNat) ∧
        (t.strand r.src r.slot).pend = [{ p with val := some (BitVec.ofNat 128 (o.signExtend 64).toNat) }]) ∧
    (∀ n c v, r.op = .cas n c v → n < 16 → 1 ≤ n → s.lockRefuses r.sup r.home n = false →
      ∃ t, exec (.homeAccess i) s = .next t ∧ only t (if old n = c then leBytes n v else s.mem.readN at_ n) ∧
        (t.strand r.src r.slot).pend = [{ p with val := some (BitVec.ofNat 128 (sextW (old n) (8 * n)).toNat) }])) ∧
  (∀ (s : State) (i : Nat) (r : Req) (pa cn pol hf hint : Nat), s.canPerform i = true → s.net[i]? = some r →
    r.home = .line pa cn pol hf → r.slot < 12 →
    let key := lineKey cn pa
    let eff := effPolicy pol hint
    (∀ n sz (p : Pend), r.op = .load n 0 sz hint → n < 16 → (s.strand r.src r.slot).pend = [p] → p.rid = r.rid → p.val = none →
      let gives (t : State) (data : List Byte) : Prop :=
        let v := leNat (slice data (pa % 128) n)
        t.mem = s.mem ∧ t.owner = s.owner ∧ t.net = s.net.eraseIdx i ∧ (t.strand r.src r.slot).pend =
          [{ p with val := some (BitVec.ofNat 128 (if sz < 3 then (sextW v (8 * n)).toNat else v % 2 ^ (8 * n))) }]
      (∀ l, getKey s.l2 key = some l → l.poison = false →
        ∃ t, exec (.homeAccess i) s = .next t ∧ gives t l.data ∧ t.l2 = s.l2) ∧
      (getKey s.l2 key = none → s.poison.contains (s.poisonKey pa) = false →
        (2 ≤ eff → ∃ t, exec (.homeAccess i) s = .next t ∧ gives t (s.storageLine pa) ∧ t.l2 = s.l2) ∧
        (eff < 2 → (s.l2.filter fun l => l.1 / 2 ^ 49 == cn && l2Set (linePa l.1) == l2Set pa).length < s.ways cn →
          ∃ t, exec (.homeAccess i) s = .next t ∧ gives t (s.storageLine pa) ∧
            t.l2 = putKey s.l2 key { data := s.storageLine pa, dirty := 0, poison := false, victim := eff == 1 }))) ∧
    (∀ bs l, r.op = .store bs hint false → getKey s.l2 key = some l → l.poison = false → eff < 3 → bs ≠ [] →
      pa % 128 + bs.length ≤ 128 → pa < 2 ^ 56 → (∀ m ∈ s.l2, m.1 % 2 ^ 49 = pa / 128 → m.1 = key) →
      let inStore (j : Nat) : Prop := pa % 128 ≤ j ∧ j < pa % 128 + bs.length
      let word (w : Nat) : Prop := pa / 8 ≤ w ∧ w ≤ (pa + bs.length - 1) / 8
      ∃ t m, exec (.homeAccess i) s = .next t ∧ t.mem = s.mem ∧ getKey t.l2 key = some m ∧
        (∀ j < 128, (inStore j → m.data.getD j 0 = bs.getD (j - pa % 128) 0 ∧ m.dirty.testBit j = true) ∧
          (¬ inStore j → m.data.getD j 0 = l.data.getD j 0 ∧ m.dirty.testBit j = l.dirty.testBit j)) ∧
        (∀ q, q ≠ key → getKey t.l2 q = getKey s.l2 q) ∧
        (∀ w, (word w → getKey t.owner w = some r.src) ∧ (¬ word w → getKey t.owner w = getKey s.owner w)) ∧
        (∀ w o, word w → getKey s.owner w = some o → o ≠ r.src → ∃ q ∈ t.net, q.op = .loss w o cn (some r.src)) ∧
        ((∀ w, word w → getKey s.owner w = none ∨ getKey s.owner w = some r.src) → t.net = s.net.eraseIdx i ∧
          (r.src ≠ cn → ∀ w, word w → (t.core r.src).nearWord w = some {
            val := BitVec.ofNat 64 (leNat (slice m.data (w * 8 % 128) 8)), owned := true, home := cn }))))

/-- R117, R154, R173, R334, R353, R388, R401, R415: a fence with nothing outstanding completes, and an acquiring one gives up the near
copies of its scope; the cache words and SHIP send one operation to the home of their line, and have no effect on other memory, a
SHIP to another region than 0x0 and 0x1 raising cause 0x07; TLBI removes the translations of its scope, and waits while accesses that
used them are to be performed. A PREF never faults (R388); CFLUSH and TLBI of an address in an alias window raise cause 0x07. -/
def Obligations.FencesAndCacheWords : Prop :=
  ∀ (s t : State) (k tk rel acq glob : BitVec 1) (e : BitVec 3) (a b : BitVec 5) (o : BitVec 10) (op : BitVec 4) (g : Target), s.alone = true →
    let v : Word := s.me.getX a.toNat + o.signExtend 64 * 128
    let sv := s.me.getX a.toNat
    ((rel = 1 → s.releaseWaits s.cur.cn s.cur.slot e.toNat = false ∧
        (tk = 1 → s.myCore.ticketsOf s.cur.slot (fun _ => false) = false)) →
      (acq = 1 → s.loadsWait s.cur.cn s.cur.slot = false) →
      exec (.fence k tk rel acq e) s = .next (if acq = 1 then s.acquire s.cur.cn e.toNat else s).thenNext) ∧
    (s.resolve (s.access true false) v 1 = (.ok g, t) →
      ((∃ pa cn pol hf, g.home = .line pa cn pol hf) →
        (g.win = 0 → exec (.cflush k a o) s = .next (t.accesses g.home .cflush v none).thenNext) ∧
        (∀ pa cn pol hf, g.home = .line pa cn pol hf → exec (.pref k a o) s = .next
          (if pol < 2 then t.accesses g.home .pref v none else t).thenNext)) ∧
      (s.cur.slot ≠ 11 → g.win ≠ 0 → exec (.cflush k a o) s = .next (s.suspendedAt 0x07 v s.cur.bundle)) ∧
      ((∀ pa cn pol hf, g.home ≠ .line pa cn pol hf) →
        (g.win = 0 → exec (.cflush k a o) s = .next t.thenNext) ∧ exec (.pref k a o) s = .next t.thenNext)) ∧
    (∀ c, s.resolve (s.access true false) v 1 = (.error c, t) →
      exec (.pref k a o) s = .next (if c = heldCause then s.setEnding .waiting else s.thenNext)) ∧
    (s.me.sup = true → s.resolve (s.access false true) v 1 = (.ok g, t) → g.win = 0 → (∃ pa cn pol hf, g.home = .line pa cn pol hf) →
      exec (.cinv k a o) s = .next (t.accesses g.home .cinv v none).thenNext) ∧
    (op.toNat < 6 → let n := if op = 1 then 4 else 8
      let far := (s.paOf (s.access false true) sv).any fun pa => 1 < pa / 2 ^ 52 % 2 ^ 4
      sv.toNat % n = 0 →
      (far = true → s.cur.slot ≠ 11 → exec (.ship k a b op) s = .next (s.suspendedAt 0x07 sv s.cur.bundle)) ∧
      (far = false → s.resolve (s.access false true) sv n = (.ok g, t) → g.region ≤ 1 →
        exec (.ship k a b op) s = .next
          (t.accesses g.home (.ship op.toNat ((s.me.getX b.toNat).toNat % 2 ^ (8 * n)) false) sv none).thenNext)) ∧
    (s.me.sup = true →
      let gone := s.invalidate s.cur.cn e.toNat (glob == 1) (if a = 0 then none else some sv.toNat)
      (a = 0 ∨ sv.toNat < 2 ^ 56 ∧ aliasWindow sv = false → s.held = none →
        exec (.tlbi k a glob e) s = .next (if s.translating e.toNat s.nextRid
          then (gone.note (.tlbi s.nextRid)).setEnding .begun else gone.thenNext)) ∧
      (a ≠ 0 → 2 ^ 56 ≤ sv.toNat ∨ aliasWindow sv = true → s.cur.slot ≠ 11 →
        exec (.tlbi k a glob e) s = .next (s.suspendedAt 0x07 sv s.cur.bundle)))


/-! ### Tickets (R143 to R145, R204 to R212, R216 to R218, R229, R244 to R252, R318, R331, R338, R342, R349, R355, R360, R374, R377,
R378, R389, R397, R403, R409, R414) -/

/-- R145, R204 to R206, R244, R342, R355, R360, R377, R389, R397, R403: with a free slot and the tiles in their states, every ticket
instruction whose operands are valid issues a ticket: the table entry, the handle and the tile states of `State.issues`. A table
instruction on a STRICT table does so at once; on a BOUNDED or STEPPED one it takes its tiles and asks the descriptor's home for its
step tag, and when the tag has been granted it issues the ticket with it. -/
def Obligations.TicketsAreIssued : Prop :=
  ∀ (s t : State) (k f : BitVec 1) (d a b v c : BitVec 5) (m : BitVec 3) (n : Nat), s.alone = true →
    let x := s.me.getX a.toNat
    let y := s.me.getX b.toNat
    let bytes (j : BitVec 5) : Nat := (s.myCore.tile j.toNat).bytes
    let gives (u : State) (i : Instr) (xa : Word) (dst : Option Nat) (srcs : List Nat) (drain : Bool) (sent : List Req) : Prop :=
      u.canIssue n dst srcs drain → ∃ w, exec i s = .next w ∧ u.issues w n d i xa dst srcs drain sent
    let table (tagged : Prop) (i : Instr) (dst : Option Nat) (srcs : List Nat) : Prop := ∀ q, s.myCore.binding m.toNat = some q →
      (i = .scatter k d a m v c ∨ i = .scatadd k d a m v c → q.hmode = false ∧ v ≠ a) →
      (s.held.bind Hold.taken = none → (tagged → q.mode = 0) → gives s i 0 dst srcs false []) ∧
      (∀ h u, s.held.bind Hold.taken = none → tagged → q.mode ≠ 0 → s.canIssue n dst srcs false → s.stepHome q = (.ok h, u) →
        ∃ w, exec i s = .next w ∧ w.cur.ending = .waiting ∧ w.me.x = s.me.x ∧ w.myCore.tickets = s.myCore.tickets ∧ w.mem = s.mem ∧
          (∀ j < 32, (w.myCore.tile j).st = if dst = some j then .filling else (s.myCore.tile j).st) ∧
          (∀ j < 32, (w.myCore.tile j).readers = (s.myCore.tile j).readers + if j ∈ srcs then 1 else 0) ∧
          ∃ r, w.net = s.net ++ [r] ∧ r.home = h ∧ ∃ key, r.op = .stepTag key) ∧
      (∀ desc tag, s.held = some (.tilesGranted dst srcs desc tag) → s.myCore.freeSlot = some n → s.ticketsHeld = false →
        (∀ j, dst = some j → j ∉ srcs) → ∃ w, exec i s = .next w ∧ s.tickets w n d i 0 dst [] ∧
          (w.myCore.ticket n).tag = (if q.hmode then BitVec.ofNat 64 (q.ver * 2 ^ 48) else tag) ∧ w.myCore.tiles = s.myCore.tiles)
    (x.toNat % 16 = 0 → gives s (.get k d a v c) x (some v.toNat) [] false []) ∧
    (x.toNat % 16 = 0 → s.walkHeld false true x = false → s.mcastTest false true x = none → s.myCore.phase = none →
      gives s (.put k d a v c) x none [v.toNat] true []) ∧
    (∀ bs, x.toNat % 32 = 0 → s.readStrand x 32 = (.ok bs, t) →
      let src := wordAt bs 0
      let dst := wordAt bs 8
      let role := leAt bs 24 8
      leAt bs 16 8 ≠ 0 → leAt bs 16 8 ≤ 2 ^ 40 → leAt bs 16 8 % 16 = 0 →
      (role ≠ 2 → src.toNat % 16 = 0 ∧ t.walkHeld true false src = false ∧ t.mcastTest true false src = none) →
      (role ≠ 1 → dst.toNat % 16 = 0 ∧ t.walkHeld false true dst = false ∧ t.mcastTest false true dst = none) →
      (role = 0 → v = 0 → gives t (.copy k d a v c) x none [] false []) ∧
      (role = 1 → leAt bs 16 8 ≤ bytes v → gives t (.copy k d a v c) x (some v.toNat) [] false []) ∧
      (role = 2 → leAt bs 16 8 ≤ bytes v → gives t (.copy k d a v c) x none [v.toNat] false [])) ∧
    (∀ bs, x.toNat % 16 = 0 → s.readStrand x 16 = (.ok bs, t) → leAt bs 0 1 < 32 → leAt bs 1 1 ≤ 8 → leAt bs 2 2 = 0 →
      leAt bs 4 4 ≠ 0 → leAt bs 8 4 % 4 = 0 → leAt bs 12 4 = 0 → leAt bs 8 4 + 4 * leAt bs 4 4 ≤ 0x10000 →
      gives t (.shuffle k d a v c) x (some v.toNat) [leAt bs 0 1] false []) ∧
    ((∃ e ∈ s.instanceOf (dieOf s.cur.cn) (x.toNat % 64), e.1 = dieOf s.cur.cn ∧ e.2.2.has e.1 s.cur.cn = true) →
      gives s (.coll k d a m v c) x (some (v.toNat + 1)) [v.toNat] false []) ∧
    (isDense s.cur.cn = true → x.toNat / 2 ^ 6 % 4 = 0 → x.toNat / 2 ^ 15 = 0 → bytes v % 512 = 0 →
      x.toNat / 2 ^ 8 % 2 ^ 7 + bytes v / 512 ≤ 128 →
      gives s (.aload k d a v c) x none [v.toNat] true [] ∧ gives s (.astore k d a v c) x (some v.toNat) [] false []) ∧
    table True (.gather k d a 0 m v c) (some v.toNat) [a.toNat] ∧ table False (.gather k d a 1 m v c) none [a.toNat] ∧
    table True (.gatherp k d a f m v c) (some v.toNat) [a.toNat, a.toNat + 1] ∧
    table True (.scatter k d a m v c) none [a.toNat, v.toNat] ∧ table True (.scatadd k d a m v c) none [a.toNat, v.toNat] ∧
    (∀ bs, isDense s.cur.cn = true → x.toNat % 64 = 0 → s.readStrand x 64 = (.ok bs, t) →
      let cmd := matCmd bs
      let srcs := cmd.tiles.1.toList ++ cmd.tiles.2.toList
      let ok (kind : MatKind) : Prop := cmd.check kind s.openAddr = none ∧ cmd.tileShort kind (fun j => (s.myCore.tile j).bytes) = none
      (ok .dense → gives t (.mmul k d a c) x none srcs true []) ∧ (ok .sparse → gives t (.mmuls k d a c) x none srcs true []) ∧
      (ok .rot → t.myCore.mrotLost = 0 → s.cur.cn ∈ rotMembers s.cur.cn cmd.ctl →
        (rotMembers s.cur.cn cmd.ctl).all (s.partFor s.cur.cn).holds = true → gives t (.mrot k d a c) x none srcs true [])) ∧
    (∀ bs, isDense s.cur.cn = true → x.toNat % 32 = 0 → s.readStrand x 32 = (.ok bs, t) →
      (fetchCmd bs).check s.openAddr = none → gives t (.mfetch k d a c) x none [] false []) ∧
    (∀ bs, isDense (x.toNat % 2 ^ 16) = true → isCore (x.toNat % 2 ^ 16) = true → (s.partFor s.cur.cn).holds (x.toNat % 2 ^ 16) = true →
      y.toNat % 8 = 0 → s.readStrand y 72 = (.ok bs, t) → mcmdCheck bs s.openAddr = none →
      let target := x.toNat % 2 ^ 16
      let op : ReqOp := .mcmd target (leAt bs 0 2) (leAt bs 0 8 / 2 ^ 16 % 4) bs n (t.myCore.seq % 2 ^ 32)
      gives t (.mcmd k d a b c) x none [] false
        [{ t.wordRequest (.owner target) op y none none none with rid := t.nextRid + 1 }])

/-- R207, R209 to R212, R318, R331, R349, R414: on a pending ticket WAITT waits and TESTT tells so; on an ended one WAITT and WAITT.nt
observe the end with its flags, but WAITT traps on a FAULTED one, and TESTT tells the end without observing it. CANCEL has an effect
on a pending ticket only: one with a running element is marked, one between elements ends CANCELLED. DETACH marks the ticket, and
frees an ended one that nobody waits for. A stale handle is answered at once; TINFO gives the fault record, and TINFO.resume starts a
parked ticket again, and withdraws its entry if that has not started (log 31); ADOPT makes slot 0 the owner under a new
generation. -/
def Obligations.TicketsAreObserved : Prop :=
  ∀ (s : State) (k : BitVec 1) (d a : BitVec 5) (e : BitVec 3), s.alone = true → s.cur.slot ≠ 11 →
    let h := s.me.getX a.toNat
    let n := h.toNat % 64
    let gen := h.toNat / 64 % 1024
    let x := s.myCore.ticket n
    let code : Nat := match x.st with | .pending => 0 | .done => 1 | .faulted => 2 | .cancelled => 3
    let named := x.live = true ∧ x.gen = gen
    let others := ∀ j < 64, j ≠ n → s.myCore.freesNow j = false
    let put (y : Ticket) : State := s.modMyCore fun c => c.setTicket n y
    (¬ named →
      (s.held = none → exec (.waitt k a) s = .next (s.acquire s.cur.cn 5).thenNext ∧
        exec (.waittNt k d a) s = .next ((s.acquire s.cur.cn 5).wroteX d 5)) ∧
      exec (.testt k d a) s = .next ((s.acquire s.cur.cn 5).wroteP d 0x0013) ∧
      exec (.cancel k a) s = .next s.thenNext ∧ exec (.detach k a) s = .next s.thenNext ∧
      exec (.tinfo k d a e) s = .next (s.wroteX d 0) ∧
      (s.cur.slot = 0 → exec (.adopt k d a) s = .next (s.wroteX d 0)) ∧
      (s.me.sup = true → exec (.tinfoResume k d a) s = .next (s.wroteX d 0))) ∧
    (named → x.st = .pending →
      (s.held = none → exec (.waitt k a) s = .next ((s.note (.waitt n gen)).setEnding .waiting) ∧
        exec (.waittNt k d a) s = .next ((s.note (.waitt n gen)).setEnding .waiting)) ∧
      exec (.testt k d a) s = .next (s.wroteP d (if x.parked then 0x0020 else 0)) ∧
      exec (.cancel k a) s = .next (s.cancelTicket s.cur.cn n).thenNext ∧
      (x.collDomain = none → x.armedAt = none → x.running = true → s.cancelTicket s.cur.cn n = put { x with cxl := true }) ∧
      (x.collDomain = none → x.armedAt = none → x.running = false → x.rots = false → x.refs = false → x.det = false →
        (∀ i < 12, (s.strand s.cur.cn i).exiting = false) → others →
        ∃ t, exec (.cancel k a) s = .next t ∧ (t.myCore.ticket n).st = .cancelled ∧ (t.myCore.ticket n).live = true ∧
          t.me.pc = s.cur.bundle + 4 ∧ t.me.x = s.me.x ∧ t.mem = s.mem ∧ ∀ j, j ≠ n → t.myCore.ticket j = s.myCore.ticket j)) ∧
    (named → x.st ≠ .pending →
      (s.held = none → x.st = .faulted → exec (.waitt k a) s = .next
        (s.suspendedAt 0x11 (BitVec.ofNat 64 (h.toNat % 2 ^ 16)) s.cur.bundle)) ∧
      (s.held = none → x.st ≠ .faulted → exec (.waitt k a) s = .next (s.observeEnd n gen x.tflags false).thenNext) ∧
      (s.held = none → exec (.waittNt k d a) s = .next ((s.observeEnd n gen x.tflags true).wroteX d (BitVec.ofNat 64 code))) ∧
      (s.held = none → x.st ≠ .faulted → others → s.myCore.awaits n gen = false →
        ∃ t, exec (.waitt k a) s = .next t ∧ (t.myCore.ticket n).live = false ∧ (t.myCore.ticket n).gen = gen ∧
          t.me.flags = s.me.flags ||| BitVec.ofNat 64 x.tflags ∧ t.me.x = s.me.x ∧ t.me.v = s.me.v ∧ t.me.p = s.me.p ∧
          t.me.pc = s.cur.bundle + 4 ∧ (∀ j, j ≠ n → t.myCore.ticket j = s.myCore.ticket j) ∧ t.mem = s.mem) ∧
      exec (.testt k d a) s = .next
        (((s.modMe fun u => { u with flags := u.flags ||| BitVec.ofNat 64 x.tflags }).acquire s.cur.cn (if x.fabric then 5 else 4)).wroteP d
          (BitVec.ofNat 16 (1 + 2 ^ code + if x.parked then 32 else 0))) ∧
      exec (.cancel k a) s = .next s.thenNext) ∧
    (∀ st f, s.held = some (.observed n gen st f) →
      (st ≠ 2 → exec (.waitt k a) s = .next (s.observeEnd n gen f false).thenNext) ∧
      exec (.waittNt k d a) s = .next ((s.observeEnd n gen f true).wroteX d (BitVec.ofNat 64 st))) ∧
    (named →
      let y : Ticket := { x with det := true, seen := s.myCore.awaits n gen }
      exec (.detach k a) s = .next ((put y).sweepTickets s.cur.cn).thenNext ∧
      (others → x.st = .pending → (put y).sweepTickets s.cur.cn = put y) ∧
      (others → x.st = .done ∨ x.st = .cancelled → s.myCore.awaits n gen = false →
        (put y).sweepTickets s.cur.cn = put { Ticket.empty with gen := gen })) ∧
    (named → exec (.tinfo k d a e) s = .next (s.wroteX d (if x.cause = 0 then 0
      else if e = 0 then BitVec.ofNat 64 x.cause else if e = 1 then BitVec.ofNat 64 x.elem else x.faddr))) ∧
    (named → s.me.sup = true → exec (.tinfoResume k d a) s = .next
      (if x.parked then (put { x with parked := false, cause := 0, entryWaits := false }).wroteX d 1 else s.wroteX d 0)) ∧
    (named → s.cur.slot = 0 →
      let g := if 1023 ≤ gen then 1 else gen + 1
      ∃ t, exec (.adopt k d a) s = .next t ∧
        t.myCore.ticket n = { x with owner := 0, det := false, gen := g, retire := false } ∧
        t.me.getX d.toNat = (if d = 0 then 0 else BitVec.ofNat 64 (g * 64 + n)) ∧ t.me.pc = s.cur.bundle + 4 ∧
        s.keeps t [d] ∧ ∀ j, j ≠ n → t.myCore.ticket j = s.myCore.ticket j)

/-- R143, R144, R409: TDEF sets the range of an EMPTY tile, TACQ starts and TREL.fill ends a fill by software, TREL empties a READY
tile without readers, TSTAT reads a descriptor; in a wrong state each raises cause 0x0C with the tile's number. FADDR of TDEF's cause
0x07 is X[a] (log 98). -/
def Obligations.TileWords : Prop :=
  ∀ (s : State) (k : BitVec 1) (n a b d : BitVec 5), s.alone = true → s.cur.slot ≠ 11 →
    let x := s.myCore.tile n.toNat
    let base := s.me.getX a.toNat
    let len := s.me.getX b.toNat
    let set (f : Tile → Tile) : State := (s.modMyCore fun c => c.setTile n.toNat (f x)).thenNext
    let wrong := s.suspendedAt 0x0C (BitVec.ofNat 64 n.toNat) s.cur.bundle
    exec (.tdef k n a b) s = .next (
      if x.st ≠ .empty then wrong
      else if 0x10000 ≤ base.toNat then s.suspendedAt 0x07 base s.cur.bundle
      else if base.toNat % 16 ≠ 0 then s.suspendedAt 0x04 base s.cur.bundle
      else if len.toNat % 16 ≠ 0 ∨ len = 0 then s.suspendedAt 0x04 len s.cur.bundle
      else if 0x10000 < base.toNat + len.toNat then s.suspendedAt 0x07 base s.cur.bundle
      else set fun y => { y with base := base.toNat, bytes := len.toNat }) ∧
    exec (.tacq k n) s = .next (if x.st ≠ .empty then wrong else set fun y => { y with st := .filling }) ∧
    exec (.trel k n) s = .next (
      if x.st ≠ .ready then wrong else if x.readers ≠ 0 then s.setEnding .waiting else set fun y => { y with st := .empty }) ∧
    exec (.trelFill k n) s = .next (
      if x.st = .filling ∧ s.myCore.engineFills n.toNat = false then set fun y => { y with st := .ready } else wrong) ∧
    exec (.tstat k d n) s = .next (s.wroteX d (BitVec.ofNat 64
      ((match x.st with | .empty => 0 | .filling => 1 | .ready => 2 | .draining => 3) * 2 ^ 48 + x.bytes * 2 ^ 24)))


/-! ### Tables, versions, samples and frames (R155 to R159, R183, R185, R186, R194, R195, R198 to R202, R253, R254, R266, R267, R313,
R319, R325, R340, R354, R362, R376, R396, R412, R413, R424, R425) -/

/-- R183, R195, R199, R201, R202, R412, R413, R424, R425: TBIND binds a slot to the valid descriptor at X[a], and with X[a] = 0 empties
it; a reference that the slot no longer holds is ended by a request to the home of the followed descriptor (log 63). TSTEP, VPUB and VSWITCH send one request to the home of their descriptor;
there a publication takes effect when the inactive half is not held and the version is new, a switch when the version is the active
one, and the word completes when it has been answered: TSTEP with the flags of the step's applications, or with the cause of the
refusal. -/
def Obligations.TablesAndVersions : Prop :=
  (∀ (s t : State) (k : BitVec 1) (n : BitVec 3) (a b : BitVec 5) (g : Target), s.alone = true → s.cur.slot ≠ 11 →
    let x := s.me.getX a.toNat
    let ver := (s.me.getX b.toNat).toNat % 2 ^ 16
    let set (u : State) (q : Option Binding) : State := u.modMyCore fun c => { c with tslots := c.tslots.setIfInBounds n.toNat q }
    let binds (u : State) (q : Option Binding) : Prop := exec (.tbind k n a) s = .next ((set u q).dropRefs (u.partNo s.cur.cn)).thenNext ∧
      ((u.part (u.partNo s.cur.cn)).refs = .replicate 2 false → exec (.tbind k n a) s = .next (set u q).thenNext)
    let begun (u : State) (r : Req) : State := ((u.asks { r with rid := u.nextRid }).note (.reply u.nextRid)).setEnding .begun
    (x = 0 → binds s none) ∧
    (∀ bs, x ≠ 0 → x.toNat % 64 = 0 → s.readStrand x 64 = (.ok bs, t) → descValid bs s.srcPart.vsel.follow = true →
      binds t (some {
        desc := slice bs 0 0x18 ++ List.replicate 8 0 ++ slice bs 0x20 0x10, addr := x
        sel := if leAt bs 0x10 8 / 2 ^ 18 % 2 = 1 then s.srcPart.vsel.sel else 0
        ver := if leAt bs 0x10 8 / 2 ^ 18 % 2 = 1 then s.srcPart.vsel.ver else 0 })) ∧
    (x ≠ 0 → x.toNat % 64 ≠ 0 → exec (.tbind k n a) s = .next (s.suspendedAt 0x04 x s.cur.bundle)) ∧
    (s.myCore.binding n.toNat = none → exec (.tstep k n) s = .next (s.suspendedAt 0x07 (BitVec.ofNat 64 n.toNat) s.cur.bundle)) ∧
    (∀ q, s.myCore.binding n.toNat = some q →
      (q.hmode = true → exec (.tstep k n) s = .next (s.suspendedAt 0x07 (BitVec.ofNat 64 n.toNat) s.cur.bundle)) ∧
      (∀ h, q.hmode = false → s.held = none → s.stepHome q = (.ok h, t) → exec (.tstep k n) s = .next
        (begun (s.modMyCore fun c => { c with tstepSeq := c.tstepSeq + 1 }) (t.wordRequest h
          (.tstep (t.tableKey s.cur.cn (t.partNo s.cur.cn) q.addr.toNat) q.mode q.bound s.myCore.tstepSeq false) q.addr none none none))) ∧
      (∀ f, q.hmode = false → s.held = some (.replied f none) → flagsTrap s.me.fctl.toNat f.toNat = false →
        exec (.tstep k n) s = .next (s.modMe fun u => { u with flags := u.flags ||| BitVec.ofNat 64 f.toNat }).thenNext)) ∧
    (s.held = none → x.toNat % 32 = 0 → s.resolve (s.access true true) x 32 = (.ok g, t) → g.win = 0 →
      (∀ i j l, g.home ≠ .mcast i j l) → (∀ i j, g.home ≠ .dev i j) → g.home.far = false → s.releaseWaits s.cur.cn s.cur.slot 4 = false →
      exec (.vpub k a b) s = .next (begun s (t.wordRequest g.home (.vpub g.pa ver) x none none none))) ∧
    (∀ v, s.held = some (.replied v none) → exec (.vpub k a b) s = .next s.thenNext) ∧
    (∀ c f v, s.held = some (.replied v (some (c, f))) → c % 2 ^ 8 ≠ 0x13 → c ≠ heldCause →
      exec (.vpub k a b) s = .next (s.suspendedAt c f (s.cur.resume c)) ∧
      (s.cur.slot = 0 → exec (.vswitch k a) s = .next (s.suspendedAt c f (s.cur.resume c)))) ∧
    (s.cur.slot ≠ 0 → exec (.vswitch k a) s = .next (s.suspendedAt 0x01 0 s.cur.bundle)) ∧
    (s.cur.slot = 0 →
      (∀ v, s.held = some (.replied v none) → exec (.vswitch k a) s = .next s.thenNext) ∧
      (s.held = none → s.srcPart.vsel.follow = false →
        exec (.vswitch k a) s = .next (s.suspendedAt 0x0F (BitVec.ofNat 64 (x.toNat % 2 ^ 16)) s.cur.bundle)) ∧
      (s.held = none → s.srcPart.vsel.follow = true →
        let (home, u) := s.followHome (s.partNo s.cur.cn)
        exec (.vswitch k a) s = .next
          (begun s (u.wordRequest home (.vswitch (x.toNat % 2 ^ 16)) u.srcPart.follow none none none))))) ∧
  (∀ (s t : State) (i : Nat) (r : Req) (ver : Nat) (bs : List Byte) (pc : Addr), s.canPerform i = true → s.net[i]? = some r → r.slot < 12 →
    (pc, Hold.reply r.rid) ∈ (s.strand r.src r.slot).holds →
    let answered (u : State) (f : Option (Nat × Word)) : Prop :=
      exec (.weightSetRequest i) s = .next u ∧ (pc, Hold.replied 0 f) ∈ (u.strand r.src r.slot).holds
    (∀ desc, r.op = .vpub desc ver → (s.dropReq i).descAt r 32 = (some bs, t) →
      (wsHold bs (1 - wsActive bs) ≠ 0 ∨ ver = wsVer bs (wsActive bs) → ∃ u, answered u (some (0x0F, BitVec.ofNat 64 ver)) ∧ u.mem = t.mem) ∧
      (∀ cn off, r.home = .scratch cn off → wsHold bs (1 - wsActive bs) = 0 → ver ≠ wsVer bs (wsActive bs) →
        (s.dropReq i).lossesOf r.src r.slot = false → ∃ u, answered u none)) ∧
    (r.op = .vswitch ver → (s.dropReq i).sampling r.part = false → (s.dropReq i).weightSet r.part = (.ok bs, t) →
      (pc, Hold.reply r.rid) ∈ (t.strand r.src r.slot).holds →
      (ver ≠ wsVer bs (wsActive bs) → ∃ u, answered u (some (0x0F, BitVec.ofNat 64 ver)) ∧ u.part r.part = t.part r.part) ∧
      (ver = wsVer bs (wsActive bs) → ver = (s.part r.part).vsel.ver → ∃ u, answered u none ∧ u.part r.part = t.part r.part) ∧
      (ver = wsVer bs (wsActive bs) → ver ≠ (s.part r.part).vsel.ver → (t.part? r.part).isSome = true →
        ∃ u, answered u none ∧ (u.part r.part).vsel = { (t.part r.part).vsel with sel := wsActive bs, ver := ver })))

/-- R185, R186, R243, R266, R267, R313, R325, R362, R376, R396: IDSORT writes the distinct identifiers with their counts and the
inverse map, MERGE the merged list, ACVT the converted accumulators, each to its tiles; AZERO clears its accumulators, and AZERO and
ACVT wait, with their place at the array, while an earlier operation there conflicts; SAMPLE notes VSEL at its issue, then chooses a token, sends its record and
counts its draws. The choice follows the fixed-point values of log 13, the record leaves unarmed (log 53), and TOKEN is the index also
with d = 0 (log 97). A locked handler table of the own core refuses the record at once (log 27). -/
def Obligations.TileResults : Prop :=
  ∀ (s : State) (k : BitVec 1) (d a b t : BitVec 5), s.alone = true →
    let tile (n : BitVec 5) : Tile := s.myCore.tile n.toNat
    let soft (n : BitVec 5) : Prop := (tile n).st = .filling ∧ s.myCore.engineFills n.toNat = false
    let ready (n : BitVec 5) : Prop := (tile n).st = .ready
    let ids (n : BitVec 5) : List Nat := idEntries (s.tileBytes s.cur.cn (tile n))
    let free (off len : Nat) : Prop := (len ≠ 0 → s.locked s.me.sup s.cur.cn off len = false) ∧ off + len ≤ 0x10000
    let base (n : BitVec 5) : Nat := scratchKey s.cur.cn (tile n).base
    let turn : Nat := match s.held with
      | some (.array rid _ _) => rid
      | _ => s.nextRid
    let waits (i : Instr) : Prop := ∃ w, exec i s = .next w ∧ w.mem = s.mem ∧
      w.cur.ending = (match s.held with | some (.array _ _ _) => .waiting | _ => .begun) ∧ w.me.pc = s.me.pc
    (let ds := distinctIds (ids a);
      let u := ds.flatMap fun x => leBytes 8 x ++ leBytes 4 ((ids a).count x) ++ leBytes 4 0;
      let w := (ids a).flatMap fun x => leBytes 4 (if x = 2 ^ 64 - 1 then 2 ^ 32 - 1 else ds.idxOf x);
      s.ownQuiet = true → t ≠ a → t ≠ b → a ≠ b → soft t → soft b → ready a → 2 * (tile a).bytes ≤ (tile t).bytes →
      (tile a).bytes / 2 ≤ (tile b).bytes → free (tile t).base u.length → free (tile b).base w.length →
      exec (.idsort k d a b t) s = .next (({ s with mem := (s.mem.writeN (base t) u).writeN (base b) w } : State).wroteX d
        (BitVec.ofNat 64 ds.length))) ∧
    (let as := (ids a).filter (· ≠ 2 ^ 64 - 1);
      let bs := (ids b).filter (· ≠ 2 ^ 64 - 1);
      let r := mergeIds (as.length + bs.length + 1) as bs none none [] false;
      let u := r.1.flatMap fun x => leBytes 8 x;
      let f := if r.2 then fORDV else 0;
      s.ownQuiet = true → t ≠ a → t ≠ b → soft t → ready a → ready b → 2 * ((tile a).bytes + (tile b).bytes) ≤ (tile t).bytes →
      free (tile t).base u.length → flagsTrap s.me.fctl.toNat f = false → (r.2 && fctlOrdv s.me.fctl.toNat) = false →
      exec (.merge k d a b t) s = .next
        ((({ s with mem := s.mem.writeN (base t) u } : State).modMe fun z =>
          z.setX d.toNat (BitVec.ofNat 64 r.1.length)).continuesAt f (s.cur.bundle + 4) false)) ∧
    (let x := (s.me.getX a.toNat).toNat;
      let first := accKey s.cur.cn (16384 * (x % 2 ^ 6));
      let foot : Foot := { reads := [], writes := [accRange (x % 2 ^ 6) (x / 2 ^ 8)] };
      isDense s.cur.cn = true → x / 2 ^ 6 % 4 = 0 → x / 2 ^ 15 = 0 → 0 < x / 2 ^ 8 → x % 2 ^ 6 + x / 2 ^ 8 ≤ 64 →
      (s.arrayWaits s.cur.cn (turn, 0, 0) foot = false → exec (.azero k a) s = .next ({ s with
        mem := s.mem.filter fun c => c.1 < first || first + 65536 * (x / 2 ^ 8) ≤ c.1 } : State).thenNext) ∧
      (s.arrayWaits s.cur.cn (turn, 0, 0) foot = true → waits (.azero k a))) ∧
    (∀ g u, let va := s.me.getX a.toNat;
      s.scalarTarget false true va 8 = (.ok g, u) → g.isMcast = false → (g.home.own s.cur.cn = true → u.lockRefuses s.me.sup g.home 8 = false) →
      ready t →
      (s.held = none → s.switching = false → exec (.sample k d a t) s = .next ((s.note (.sample (BitVec.ofNat 64
        ((s.partFor s.cur.cn).vsel.sel * 2 ^ 48 + b2n (s.partFor s.cur.cn).vsel.follow * 2 ^ 16 +
          (s.partFor s.cur.cn).vsel.ver)))).setEnding .begun)) ∧
      ∀ vsel best nan, (∀ x y z, g.home ≠ .mcast x y z) → s.held = some (.sample vsel) → u.ownQuiet = true →
      (nan = true → flagsTrap s.me.fctl.toNat fNV = false) →
      let xs := elems 4 (s.tileBytes s.cur.cn (tile t));
      sampleBest s.me.rkey.toNat s.me.sid.toNat s.me.draw.toNat xs 0 none false = (best, nan) →
      let token := match best with | none => 0xFFFFFFFF | some p => p.1 % 2 ^ 32;
      ∃ w, exec (.sample k d a t) s = .next w ∧ w.cur.ending = .done ∧ w.me.draw = s.me.draw + BitVec.ofNat 64 xs.length ∧
        (w.me.getX d.toNat).toNat % 2 ^ 32 = (if d = 0 then 0 else token) ∧
        w.me.flags = s.me.flags ||| (if nan then BitVec.ofNat 64 fNV else 0) ∧
        (∃ q bs, w.net = s.net ++ [q] ∧ q.home = g.home ∧ q.op = .store bs 0 false ∧ leAt bs 0 4 = token ∧
          (vsel.toNat / 2 ^ 16 % 2 = 1 → leAt bs 4 2 = vsel.toNat % 2 ^ 16) ∧ bs.length = 8) ∧
        (∀ r, r ≠ d → w.me.getX r.toNat = s.me.getX r.toNat) ∧ w.me.v = s.me.v ∧ w.me.p = s.me.p ∧ w.mem = s.mem) ∧
    (∀ bs u (dt : BitVec 5), let va := s.me.getX a.toNat;
      isDense s.cur.cn = true → va.toNat % 16 = 0 → s.readStrand va 16 = (.ok bs, u) → soft t →
      let blk := leAt bs 0 1;
      let rows := leAt bs 2 2;
      let scale := leAt bs 4 4;
      let soff := leAt bs 8 4;
      blk < 64 → rows ≠ 0 → leAt bs 1 1 + rows ≤ 128 → 0 < scale / 2 ^ 23 → scale / 2 ^ 23 < 255 → leAt bs 12 4 = 0 →
      soff % 4 = 0 → (dt ≠ 13 → soff = 0) → (dt = 13 → soff + 16 * rows ≤ 0x10000) →
      fmtBytes (if dt = 10 then 9 else dt.toNat) (128 * rows) ≤ (tile t).bytes →
      let foot : Foot := { reads := [accRange blk 1], writes := [] };
      (s.arrayWaits s.cur.cn (turn, 0, 0) foot = true → waits (.acvt k a t dt)) ∧
      let es : List (Nat × Nat) :=
        (words32 (u.mem.readRun (accKey s.cur.cn (16384 * blk + 128 * leAt bs 1 1)) (512 * rows))).map fun x => acvtElem dt.toNat x scale;
      let out : List Byte := if dt = 13 then packNibbles (es.map (·.1))
        else es.flatMap fun e => leBytes (if dt.toNat ≤ 10 then 2 else 1) e.1;
      let scales : List Byte := if dt = 13 then (List.range (4 * rows)).flatMap fun _ => leBytes 4 scale else [];
      let flags := es.foldl (fun acc e => acc ||| e.2) 0;
      s.arrayWaits s.cur.cn (turn, 0, 0) foot = false → u.ownQuiet = true → free (tile t).base out.length → free soff scales.length →
      flagsTrap s.me.fctl.toNat flags = false →
      exec (.acvt k a t dt) s = .next (({ u with
        mem := (u.mem.writeN (base t) out).writeN (scratchKey s.cur.cn soff) scales } : State).continuesAt flags
          (s.cur.bundle + 4) false))


/-- R155, R156, R340, R341: COMMIT, after its release, pops the top frame of the stack of the leaf's size, zeroes it and makes the entry map it; DECOMMIT
pushes the entry's frame, makes the entry reserved, and removes its translations and cached lines; on an entry that is in that
state already neither has an effect, DECOMMIT of a versioned entry raises 0x07, and in user mode each raises cause 0x03 with the
address. That COMMIT takes REGION from the frame word and DECOMMIT leaves it, and that the write of the entry ends its ownership, is
log 36; where FRAME stands is R148 (log 83). -/
def Obligations.FramesComeAndGo : Prop :=
  ∀ (s t u v : State) (k : BitVec 1) (a : BitVec 5) (w : Walk) (bs fw : List Byte), s.alone = true → s.cur.slot ≠ 11 →
    let va := s.me.getX a.toNat
    let stack := (s.partFor s.cur.cn).fpool + BitVec.ofNat 64 ((3 - w.level) * 16)
    let count := leAt bs 8 4
    let size := 2 ^ pageBits w.level
    (s.me.sup = false → exec (.commit k a) s = .next (s.suspendedAt 0x03 va s.cur.bundle) ∧
      exec (.decommit k a) s = .next (s.suspendedAt 0x03 va s.cur.bundle)) ∧
    (s.me.sup = true → 0x80000 ≤ va.toNat → va.toNat < 2 ^ 56 →
      leafFrom s va.toNat 4 0 (s.partFor s.cur.cn).root = .ok w → s.frameMoving (frameBase w.pte) size = false →
      (pteState w.pte ≠ 1 → exec (.commit k a) s = .next s.thenNext) ∧
      (pteState w.pte = 1 → exec (.decommit k a) s = .next s.thenNext) ∧
      (pteState w.pte = 3 → exec (.decommit k a) s = .next (s.suspendedAt 0x07 va s.cur.bundle)) ∧
      (s.readBytes (s.access true false) stack 16 = (.ok bs, t) →
        (pteState w.pte = 1 → s.releaseWaits s.cur.cn s.cur.slot 4 = false → count = 0 → exec (.commit k a) s = .next (s.suspendedAt 0x15 va s.cur.bundle)) ∧
        (pteState w.pte = 1 → s.releaseWaits s.cur.cn s.cur.slot 4 = false → count ≠ 0 →
          t.readBytes (t.access true false) (wordAt bs 0 + BitVec.ofNat 64 (8 * (count - 1))) 8 = (.ok fw, u) →
          u.writeBytes (u.access false true) s.cur.slot (stack + 8) (leBytes 4 (count - 1)) = .ok v →
          ∃ pte, exec (.commit k a) s = .next ((v.zeroFrame (frameBase (leNat fw)) size).writePte w.addr pte).thenNext ∧
            pteV pte = true ∧ pteState pte = 2 ∧ pteFrame pte = pteFrame (leNat fw) ∧ pteRegion pte = pteRegion (leNat fw) ∧
            fld pte 44 16 = fld w.pte 44 16) ∧
        (pteState w.pte = 2 → leAt bs 12 4 ≤ count → exec (.decommit k a) s = .next (s.suspendedAt 0x15 va s.cur.bundle)) ∧
        (pteState w.pte = 2 → count < leAt bs 12 4 → t.frameInUse (frameBase w.pte) size = false →
          t.pageInUse (t.partNo t.cur.cn) w.level va.toNat = false →
          t.writeBytes (t.access false true) s.cur.slot (wordAt bs 0 + BitVec.ofNat 64 (8 * count))
            (leBytes 8 (pteFrame w.pte * 2 ^ 8 + pteRegion w.pte * 2 ^ 60)) = .ok u →
          u.writeBytes (u.access false true) s.cur.slot (stack + 8) (leBytes 4 (count + 1)) = .ok v →
          ∃ pte, exec (.decommit k a) s = .next ((((v.writePte w.addr pte).invalidate s.cur.cn 4 true (some va.toNat)).dropFrame
              (frameBase w.pte) size)).thenNext ∧
            pteV pte = true ∧ pteState pte = 1 ∧ pteFrame pte = 0 ∧ fld pte 44 20 = fld w.pte 44 20)))

/-- R158, R159, R319, R354: ALLOC takes the head block of a list, marks it in the bitmap, makes its link the head and counts one
free block less; FREE links a marked block in front, clears its mark and counts one more; a list number above LISTS raises 0x07,
an empty list and a block that is free already 0x15. -/
def Obligations.BlocksComeAndGo : Prop :=
  ∀ (s t u v w : State) (k : BitVec 1) (d a b : BitVec 5) (bs link m : List Byte), s.alone = true → s.cur.slot ≠ 11 →
    let n := s.me.getX a.toNat
    let block := s.me.getX b.toNat
    let al := s.srcPart.alist.toNat
    let at_ : Word := BitVec.ofNat 64 (al % 2 ^ 56 / 32 * 32 + 32 * n.toNat)
    let head := leAt bs 24 4
    let free := leAt bs 28 4
    let size := leAt bs 16 4
    let first : Word := wordAt bs 0 + BitVec.ofNat 64 (head * size)
    let i := (block.toNat - leAt bs 0 8) / size
    let mark (j : Nat) : Word := wordAt bs 8 + BitVec.ofNat 64 (j / 8)
    (al / 2 ^ 56 < n.toNat → exec (.alloc k d a) s = .next (s.suspendedAt 0x07 n s.cur.bundle) ∧
      exec (.free k a b) s = .next (s.suspendedAt 0x07 n s.cur.bundle)) ∧
    (n.toNat ≤ al / 2 ^ 56 → s.readStrand at_ 32 = (.ok bs, t) →
      (head = 0xFFFFFFFF → exec (.alloc k d a) s = .next (s.suspendedAt 0x15 n s.cur.bundle)) ∧
      (head ≠ 0xFFFFFFFF → 0 < free → t.readBytes (t.access true false) first 4 = (.ok link, u) →
        u.readBytes (u.access true false) (mark head) 1 = (.ok m, v) → leNat m / 2 ^ (head % 8) % 2 = 0 →
        v.writeAll (v.access false true) s.cur.slot [(mark head, leBytes 1 (leNat m + 2 ^ (head % 8))), (at_ + 24, link ++ leBytes 4 (free - 1))]
          = .ok w →
        exec (.alloc k d a) s = .next ((w.modMe fun z => z.setX d.toNat first).acquire s.cur.cn 4).thenNext) ∧
      (s.releaseWaits s.cur.cn s.cur.slot 4 = false →
        (block.toNat < leAt bs 0 8 ∨ size = 0 ∨ (block.toNat - leAt bs 0 8) % size ≠ 0 ∨ leAt bs 20 4 ≤ i →
          exec (.free k a b) s = .next (s.suspendedAt 0x07 block s.cur.bundle)) ∧
        (leAt bs 0 8 ≤ block.toNat → 0 < size → (block.toNat - leAt bs 0 8) % size = 0 → i < leAt bs 20 4 →
          t.readBytes (t.access true false) (mark i) 1 = (.ok m, u) → m.length = 1 →
          (leNat m / 2 ^ (i % 8) % 2 = 0 → exec (.free k a b) s = .next (s.suspendedAt 0x15 n s.cur.bundle)) ∧
          (leNat m / 2 ^ (i % 8) % 2 = 1 →
            u.writeAll (u.access false true) s.cur.slot [(block, slice bs 24 4), (mark i, leBytes 1 (leNat m - 2 ^ (i % 8))),
              (at_ + 24, leBytes 4 i ++ leBytes 4 (free + 1))] = .ok v →
            exec (.free k a b) s = .next v.thenNext))))

/-! ### Barriers, slots and messages (R222 to R226, R230, R231, R234, R326, R400, R404) -/

/-- R222 to R225, R326, R404: the first execution of BAR or BARV arrives at its instance and waits; when every member has arrived the
instance completes for all of them with the AND and the OR of its votes; a released BAR completes and BARV writes its result;
SLOT arms its strand when its owned slot is near, and outside a phase raises cause 0x09; the phase closes after its last slot. -/
def Obligations.BarriersAndSlots : Prop :=
  ∀ (s : State) (k : BitVec 1) (d a b : BitVec 5) (o : BitVec 1) (n : BitVec 10), s.alone = true → s.cur.slot ≠ 11 →
    let dom := (s.me.getX a.toNat).toNat % 64
    let die := dieOf s.cur.cn
    (∀ x y, s.held = some (.released x y) → exec (.bar k a) s = .next s.thenNext ∧
      exec (.barv k d a b o) s = .next (s.wroteP d (if (if o = 1 then y else x) then 0xFFFF else 0))) ∧
    (∀ q, s.held = none → s.usable s.cur.cn dom = some q → q.sched = false → s.releaseWaits s.cur.cn s.cur.slot 3 = false →
      let vote := (s.me.getP b.toNat).getLsbD 0
      let arrived (votes : List Bool) : Domain := { q with arrived := insertNat s.cur.cn q.arrived, votes := votes }
      let arrives (votes : List Bool) (h : Hold) : State :=
        (({ s with doms := putKey s.doms (die * 64 + dom) (arrived votes) } : State).note h).setEnding .begun
      exec (.bar k a) s = .next (arrives q.votes (.barrier die dom none)) ∧
      exec (.barv k d a b o) s = .next (arrives (vote :: q.votes) (.barrier die dom (some vote)))) ∧
    (s.held = none → s.usable s.cur.cn dom = none →
      exec (.bar k a) s = .next (s.suspendedAt 0x07 (BitVec.ofNat 64 dom) s.cur.bundle)) ∧
    (∀ p, s.myCore.phase = some p → n.toNat < p.nslot → (leNat p.owned).testBit n.toNat = true → s.cycle < p.b + 16 + n.toNat →
      p.b + 16 + n.toNat ≤ s.cycle + 22 →
      exec (.slot k n) s = .next (s.modMe fun t => { t with arm := some n.toNat }).thenNext) ∧
    (s.myCore.phase = none → exec (.slot k n) s = .next
      (s.suspendedAt 0x09 (BitVec.ofNat 64 (0xFFFF * 2 ^ 16 + n.toNat)) s.cur.bundle)) ∧
    (∀ cn p, (s.core cn).phase = some p → p.b + 16 + p.nslot ≤ s.cycle → ∃ t, exec (.phaseClose cn) s = .next t ∧
      (t.core cn).phase = none ∧ (∀ i < 12, t.strand cn i = { s.strand cn i with arm := none }) ∧
      (∀ j, j ≠ cn → t.core j = s.core j) ∧ t.mem = s.mem) ∧
    (∀ cn slot p m, slot < 12 → (s.core cn).phase = some p → (s.strand cn slot).holds = [(s.cur.pc, .slot m)] →
      p.b + 16 + m ≤ s.cycle + 22 → exec (.slotArm cn slot) s = .next
        (s.modStrand cn slot fun t => { t with holds := [(s.cur.pc, .armed)] })) ∧
    (∀ q, s.dom? die dom = some q → q.paired = false → q.sched = false → q.members die ≠ [] → (q.members die).Nodup →
      (∀ cn ∈ q.members die, cn ∈ q.arrived) →
      ∃ t, exec (.barrierComplete die dom) s = .next t ∧ t.mem = s.mem ∧
        t.dom? die dom = some { q with count := q.count + 1, arrived := [], votes := [] } ∧
        ∀ cn ∈ q.members die, ∀ i < 12, ∀ pc v, (pc, .barrier die dom v) ∈ (s.strand cn i).holds →
          (pc, Hold.released (q.votes.all id) (q.votes.any id)) ∈ (t.strand cn i).holds)

/-- R230, R231, R234, R361, R400: SEND sends its payload words with its source, to a core of this device or of one that it reaches;
a message with the key of its target enters the inbox
behind the others, or waits at the port while the inbox is full, and enters it when there is room. One with another key, or for a
partition whose key is 0, is diverted with reason 1 and never delivered, and its containment pair goes to the sender's error queue; one
for a quarantined core is diverted with reason 3. -/
def Obligations.MessagesAreDelivered : Prop :=
  ∀ (s : State) (k : BitVec 1) (a b : BitVec 5) (n : BitVec 3) (i : Nat) (r : Req) (m : Msg), s.alone = true → s.cur.slot ≠ 11 →
    let w := s.me.getX a.toNat
    let cn := w.toNat % 2 ^ 16
    let dev := w.toNat / 2 ^ 16 % 2 ^ 16
    let sent : Msg := { target := w, srcDev := 0xFFFF, srcCn := s.cur.cn, arrived := 0
                        payload := (List.range n.toNat).map fun j => s.me.getX (b.toNat + j) }
    let here : Msg := { m with arrived := s.cycle }
    (w.toNat / 2 ^ 36 % 2 ^ 12 = 0 → isCore cn = true → s.isLocal dev = true → s.myCore.phase = none → s.sendFull s.cur.cn = false →
      exec (.send k a b n) s = .next (s.asks (s.wordRequest (.scratch cn 0) (.send sent) w none none none)).thenNext) ∧
    (w.toNat / 2 ^ 36 % 2 ^ 12 = 0 → isCore cn = true → s.isLocal dev = false → s.reaches dev = true → s.myCore.phase = none →
      s.sendFull s.cur.cn = false →
      exec (.send k a b n) s = .next (s.asks (s.wordRequest (.remote dev cn 0) (.send sent) w none none none)).thenNext) ∧
    (w.toNat / 2 ^ 36 % 2 ^ 12 ≠ 0 ∨ isCore cn = false ∨ (s.isLocal dev = false ∧ s.reaches dev = false) →
      exec (.send k a b n) s = .next (s.suspendedAt 0x07 w s.cur.bundle)) ∧
    (∀ h, s.canPerform i = true → s.net[i]? = some r → r.op = .send m → r.home = .scratch m.cn h → s.portFull m.cn = false →
      s.quarantined m.cn = false → m.target.toNat / 2 ^ 48 = (s.partFor m.cn).key → (s.partFor m.cn).key ≠ 0 →
      (s.core m.cn).heldIn = [] →
      ∃ t, exec (.messageArrival i) s = .next t ∧ t.net = s.net.eraseIdx i ∧ t.mem = s.mem ∧
        (t.core m.cn).inbox = (s.core m.cn).inbox ++ (if (s.core m.cn).inbox.length < 16 then [here] else []) ∧
        (t.core m.cn).heldIn = (if (s.core m.cn).inbox.length < 16 then [] else [here]) ∧
        (∀ j, j ≠ m.cn → t.core j = s.core j)) ∧
    (∀ h, s.canPerform i = true → s.net[i]? = some r → r.op = .send m → r.home = .scratch m.cn h → s.portFull m.cn = false →
      let q := s.dropReq i
      (s.quarantined m.cn = true → exec (.messageArrival i) s = .next (q.divert 3 here)) ∧
      (s.quarantined m.cn = false → m.target.toNat / 2 ^ 48 ≠ (s.partFor m.cn).key ∨ (s.partFor m.cn).key = 0 →
        let v := fun (x : Nat) => (here.payload.getD x 0).toNat
        let pair := [errRecord 2 0x0A m.srcCn (m.srcDev * 2 ^ 16 + m.payload.length) m.target.toNat (v 0) (v 1),
          errRecord 10 0 0 0 (v 2) (v 3) 0]
        ∃ t, exec (.messageArrival i) s = .next t ∧ t = (q.divert 1 here).report r.part pair ∧ t.net = s.net.eraseIdx i ∧
          (∀ j, t.core j = s.core j) ∧ (s.dev.sqProd - s.dev.sqCons < 256 → t.dev.sqProd = s.dev.sqProd + 1) ∧
          ((s.part? r.part).isSome = true → (s.part r.part).eq.drops = 0 → (s.part r.part).eq.prod - (s.part r.part).eq.cons + 2 ≤ 256 →
            (t.part r.part).eq.prod = (s.part r.part).eq.prod + 2 ∧ (t.part r.part).msix = (s.part r.part).msix + 1))) ∧
    (∀ c rest, (s.core c).heldIn = m :: rest → (s.core c).inbox.length < 16 →
      ∃ t, exec (.heldMessageAccept c) s = .next t ∧ (t.core c).inbox = (s.core c).inbox ++ [m] ∧ (t.core c).heldIn = rest ∧
        (∀ j, j ≠ c → t.core j = s.core j) ∧ t.mem = s.mem)


/-! ### Engines (R49, R109, R207, R213, R229, R239, R240, R250, R251, R339, R375) -/

/-- R49, R109, R165, R178, R207, R212, R213: an idle engine grants one element to the ticket whose turn it is. An element whose writes
are performed adds its flags, and the last one ends the ticket DONE with its destination tile READY; one with units still out waits for
them, and is FAULTED by the refusal of one. Causes 0x05 and 0x06 park the ticket, or end it CANCELLED where it is to be cancelled
(log 93); any other cause ends it FAULTED with its cause and address, and so does an enabled flag, with 0x0D.
R216, R218, R246, R247, R249, R252, R356, R358, R398: what an element writes, where its checks pass: GET, PUT and COPY move 16-byte
units from source to destination, SHUFFLE the element that its index names; GATHER stores the row of its identifier in the destination
tile and GATHERP the pooled row of its bag; SCATADD sends its entry of the
contribution tile as one row update; MMUL and MMULS add one product step to a block of accumulators; MFETCH fills a row of the operand
store, with zeros where it is masked; ALOAD and ASTORE move eight rows. -/
def Obligations.ElementsOfTickets : Prop :=
  ∀ (s u v w : State) (cn eng n : Nat) (q : Nat × Nat) (f c : Nat) (l : Bool) (a : Word) (bs : List Byte), n < 64 → q.2 < 64 →
    let x := (s.core cn).ticket n
    let runs := x.live = true ∧ x.st = .pending ∧ x.running = true ∧ x.armedAt = none
    let starts := runs ∧ x.ending = none ∧ s.reachesFar cn n = false ∧ (u.core cn).ticket n = x
    let ends := flagsTrap x.fctl f = false ∧ ((starts ∧ s.elementRun cn n = .ended u f l ∧ u.unitsOut cn n = false) ∨
      (runs ∧ x.ending = some (f, l) ∧ x.answer = none ∧ s.unitsOut cn n = false ∧ u = s))
    let plain (y : State) := x.det = false ∧ x.rots = false ∧ x.refs = false ∧ ((y.core cn).strand x.owner).exiting = false ∧
      ∀ k < 64, k ≠ n → (y.core cn).freesNow k = false
    let faults (c : Nat) (a : Word) (mem : Memory) := ∃ t, exec (.ticketElementEnd cn n) s = .next t ∧
      ((t.core cn).ticket n).st = .faulted ∧ ((t.core cn).ticket n).cause = c ∧ ((t.core cn).ticket n).faddr = a ∧ t.mem = mem
    let acc := x.access cn (s.partNo cn)
    let e := x.elem
    let src := (s.core cn).tile (x.stile.getD 0)
    let dst := (s.core cn).tile (x.dtile.getD 0)
    let quiet := s.pendingTo cn (.scratch cn 0) = false ∧ x.cmd ≠ []
    let open_ (off len : Nat) := off + len ≤ 0x10000 ∧ s.locked x.sup cn off len = false
    let moves (t : State) (g h : Home) := ∃ r ∈ t.net, ∃ ms z, r.src = cn ∧ r.slot = ticketSlot n ∧ r.op = .move ms z ∧ (g, h) ∈ ms
    let stores (t : State) (at_ : Nat) (b : List Byte) := ∀ k < b.length, ∃ r ∈ t.net, ∃ off d, r.src = cn ∧ r.slot = ticketSlot n ∧
      r.home = .scratch cn off ∧ r.op = .store d 0 false ∧ off ≤ at_ + k ∧ at_ + k < off + d.length ∧ d.getD (at_ + k - off) 0 = b.getD k 0
    let keeps (y : State) := (y.core cn).tickets = (s.core cn).tickets ∧ (y.core cn).tiles = (s.core cn).tiles
    let binding : Binding := { desc := x.cmd, addr := BitVec.ofNat 64 x.descVa, sel := x.sel, ver := fld x.tag.toNat 48 16 }
    let id := s.tileEntry cn x.stile e 8
    let word := instrOf x.word
    (eng < 4 → s.engineBusy cn eng = false → s.nextGrant cn eng = some q →
      ∃ t, exec (.engineGrant cn eng) s = .next t ∧
        (t.core q.1).ticket q.2 = { (s.core q.1).ticket q.2 with running := true } ∧
        (t.core cn).wrr = (s.core cn).wrr.setIfInBounds eng (((s.core cn).wrr[eng]?.getD 0 + 1) % 15) ∧
        (∀ k, k ≠ q.2 → (t.core q.1).ticket k = (s.core q.1).ticket k) ∧ t.mem = s.mem) ∧
    (ends → l = false → x.cxl = false →
      ∃ t, exec (.ticketElementEnd cn n) s = .next t ∧ (t.core cn).ticket n =
        { x with tflags := x.tflags ||| f, elem := e + 1, running := false, answer := none, ending := none } ∧ t.mem = u.mem) ∧
    (ends → plain u → l = true → (∀ d, x.dtile = some d → d < 32 ∧ x.stile ≠ some d ∧ x.stile2 ≠ some d) →
      ∃ t, exec (.ticketElementEnd cn n) s = .next t ∧ ((t.core cn).ticket n).st = .done ∧
        ((t.core cn).ticket n).tflags = x.tflags ||| f ∧ ((t.core cn).ticket n).live = true ∧
        (∀ d, x.dtile = some d → ((t.core cn).tile d).st = .ready) ∧ t.mem = u.mem) ∧
    (starts → s.elementRun cn n = .ended u f l → flagsTrap x.fctl f = false → u.unitsOut cn n = true →
      ∃ t, exec (.ticketElementEnd cn n) s = .next t ∧ (t.core cn).ticket n = { x with answer := none, ending := some (f, l) } ∧
        t.net = u.net ∧ t.mem = u.mem) ∧
    (starts → plain s → s.elementRun cn n = .ended u f l → flagsTrap x.fctl f = true → faults 0x0D (BitVec.ofNat 64 f) s.mem) ∧
    (runs → plain s → x.ending = some (f, l) → x.answer = some (c, bs) →
      (∀ r ∈ s.net, r.src = cn → r.slot = ticketSlot n → r.ofElement = true) → faults c (wordAt bs 0) s.mem) ∧
    (starts → s.elementRun cn n = .fault u c a → (c = 0x05 ∨ c = 0x06) →
      (x.cxl = false → ∃ t, exec (.ticketElementEnd cn n) s = .next t ∧ (t.core cn).ticket n =
        { x with running := false, answer := none, parked := true, cause := c, faddr := a, entryWaits := true } ∧ t.mem = u.mem) ∧
      (x.cxl = true → plain u → ∃ t, exec (.ticketElementEnd cn n) s = .next t ∧ ((t.core cn).ticket n).st = .cancelled ∧
        t.mem = u.mem)) ∧
    (starts → plain u → s.elementRun cn n = .fault u c a → c ≠ 0x05 → c ≠ 0x06 → faults c a u.mem) ∧
    (∀ from_ to_ total mc gs hs,
      (((∃ k d a t m, word = .get k d a t m) ∧ from_ = x.xa ∧ to_ = BitVec.ofNat 64 dst.base ∧ total = dst.bytes ∧
          mc = false) ∨
        ((∃ k d a t m, word = .put k d a t m) ∧ x.armedAt = none ∧ from_ = BitVec.ofNat 64 src.base ∧ to_ = x.xa ∧
          total = src.bytes ∧ mc = true) ∨
        ((∃ k d a t m, word = .copy k d a t m) ∧ x.cmd ≠ [] ∧ total = leAt x.cmd 16 8 ∧ mc = false ∧
          from_ = (if x.stile.isSome then BitVec.ofNat 64 src.base else wordAt x.cmd 0) ∧
          to_ = (if x.dtile.isSome then BitVec.ofNat 64 dst.base else wordAt x.cmd 8) ∧
          (x.stile = none → x.dtile = none → w.thirdParty cn (gs.zip hs) = (none, w)))) →
      let size := min 4096 (total - 4096 * e)
      targetsOf (fun y va => y.readTarget acc va 16) (size / 16) (from_ + BitVec.ofNat 64 (4096 * e)) s = (.ok gs, v) →
      targetsOf (fun y va => y.storeTarget mc acc va 16) (size / 16) (to_ + BitVec.ofNat 64 (4096 * e)) v = (.ok hs, w) →
      (gs ++ hs).any Target.far = false →
      ∃ t, s.elementRun cn n = .ended t 0 (decide (total ≤ 4096 * e + 4096)) ∧ t.mem = w.mem ∧ t.cores = w.cores ∧
        ∀ (k : Nat) g h, gs[k]? = some g → hs[k]? = some h → moves t g.home h.home) ∧
    ((∃ k d a t m, word = .shuffle k d a t m) → quiet →
      let size := 16 * 2 ^ leAt x.cmd 1 1
      let k := leNat (s.scratchBytes cn (leAt x.cmd 8 4 + 4 * e) 4)
      k < src.bytes / size → (e + 1) * size ≤ dst.bytes → open_ (dst.base + e * size) size →
      ∃ t, s.elementRun cn n = .ended t 0 (decide (leAt x.cmd 4 4 ≤ e + 1)) ∧ t.mem = s.mem ∧
        ∀ b < size / 16, moves t (.scratch cn (src.base + k * size + 16 * b)) (.scratch cn (dst.base + e * size + 16 * b))) ∧
    ((∃ k d a g t m, word = .gather k d a 0 g t m) → quiet →
      (id = 2 ^ 64 - 1 → s.elementRun cn n = .ended s 0 (s.lastEntry cn n)) ∧
      (id ≠ 2 ^ 64 - 1 → binding.rows ≤ id → s.elementRun cn n = .fault s 0x07 (BitVec.ofNat 64 id)) ∧
      (id ≠ 2 ^ 64 - 1 → id < binding.rows → (e + 1) * binding.rowBytes ≤ dst.bytes → bs.length = binding.rowBytes →
        ((binding.hmode = false ∧ s.readRow acc (binding.rowVa id) binding.rowBytes = (.ok bs, v)) ∨
          (binding.hmode = true ∧ x.answer = some (0, bs) ∧ v = s)) → keeps v →
        dst.base + e * bs.length + bs.length ≤ 0x10000 → v.locked x.sup cn (dst.base + e * bs.length) bs.length = false →
        ∃ t, s.elementRun cn n = .ended t 0 (s.lastEntry cn n) ∧ t.mem = v.mem ∧ stores t (dst.base + e * bs.length) bs)) ∧
    ((∃ k d a m g t o, word = .gatherp k d a m g t o) → quiet →
      let offs := bagOffsets (s.tileBytes cn ((s.core cn).tile (x.stile2.getD 0)))
      let ids := idEntries (s.tileBytes cn src)
      let bag := (ids.drop (offs.getD e 0)).take (offs.getD (e + 1) 0 - offs.getD e 0)
      let ds := distinctIds bag
      let r := if ds.isEmpty then (List.replicate (binding.rowBytes / fmtWidth binding.fmt * if binding.pool16 then 2 else 4) 0, 0)
        else poolRow binding.fmt x.mean binding.pool16 (ds.map fun y => bag.count y) (splitRows binding.rowBytes ds.length bs)
      let size := binding.rowBytes / fmtWidth binding.fmt * if binding.pool16 then 2 else 4
      e + 1 < offs.length → 8 ≤ binding.fmt → binding.fmt ≤ 12 → offs.getD e 0 ≤ offs.getD (e + 1) 0 →
      offs.getD (e + 1) 0 ≤ ids.length → (∀ y ∈ ds, y < binding.rows) → (e + 1) * size ≤ dst.bytes →
      (∀ k, s.elementRows cn n binding ds k = k v bs) → keeps v → dst.base + e * size + r.1.length ≤ 0x10000 →
      v.locked x.sup cn (dst.base + e * size) r.1.length = false →
      ∃ t, s.elementRun cn n = .ended t r.2 (decide (offs.length - 1 ≤ e + 1)) ∧ t.mem = v.mem ∧ stores t (dst.base + e * size) r.1) ∧
    (∀ gs, (∃ k d a g t m, word = .scatadd k d a g t m) → quiet → s.rowSent cn n = false →
      let (op, lr, eps) := (s.part (s.partNo cn)).routine binding.routine
      let size := contribBytes op binding.rowBytes
      opAccepts op binding.fmt binding.rowBytes = true → id ≠ 2 ^ 64 - 1 → id < binding.rows →
      (e + 1) * size ≤ ((s.core cn).tile (x.stile2.getD 0)).bytes →
      targetsOf (fun y va => y.rowTarget acc va) (binding.rowBytes / 16) (binding.rowVa id) s = (.ok gs, v) → keeps v →
      ∃ t r y, s.elementRun cn n = .sent t ∧ t.mem = v.mem ∧ t.net = v.net ++ [r] ∧ r.src = cn ∧ r.op = .row y ∧
        y.units = gs.map (fun g => (g.pa, g.hf, g.pol)) ∧ y.op = op ∧ y.lr = lr ∧ y.eps = eps ∧ y.fmt = binding.fmt ∧ y.id = id ∧
        y.tag = (if binding.mode = 0 then none else some x.tag.toNat) ∧ y.mode = binding.mode ∧ y.cn = cn ∧ y.tslot = n ∧ y.elem = e ∧
        y.data = v.scratchBytes cn (((s.core cn).tile (x.stile2.getD 0)).base + e * size) size) ∧
    (∀ (kind : MatKind) (as bl : List (List AGroup)) (fa fb : Nat),
      ((kind = .dense ∧ ∃ k d a m, word = .mmul k d a m) ∨ (kind = .sparse ∧ ∃ k d a m, word = .mmuls k d a m)) →
      x.cmd ≠ [] → fctlMeta x.fctl = false → w.mem.wf = true →
      let m := matCmd x.cmd
      let nk := ceilDiv m.k 128
      let i := e / (nk * m.nb)
      let j := e / nk % m.nb
      s.rowPieces cn acc (m.aPiece kind) (e % nk) 128 (128 * i) = (.ok (as, fa), v) →
      v.rowPieces cn acc m.bPiece (e % nk) 128 (128 * j) = (.ok (bl, fb), w) →
      let at_ (p q : Nat) := accKey cn (16384 * (m.accb + i * m.nb + j) + 128 * p + q)
      let values (g : AGroup) : List FVal := (g.getD []).map fun y => y.getD (.fin false 0 0)
      ∃ t g, s.elementRun cn n = .ended t g (decide (m.steps ≤ e + 1)) ∧ t.net = w.net ∧
        (∀ p < 128, ∀ q < 128, leNat (t.mem.readN (at_ p q) 4) = (accGroups (as.getD p []) ((bl.getD q []).map values)
          (if m.zero && e % nk == 0 then 0 else leNat (w.mem.readN (at_ p q) 4)) 0).1 % 2 ^ 32) ∧
        ∀ y, y < at_ 0 0 ∨ at_ 0 0 + 65536 ≤ y → t.mem.read y = w.mem.read y) ∧
    ((∃ k d a m, word = .mfetch k d a m) → x.cmd ≠ [] → s.mem.wf = true →
      let m := fetchCmd x.cmd
      let at_ := operandKey cn (m.dst + e * m.rowb)
      let mask := fDec 8 (leNat (s.mem.readN (accKey cn (m.maske + e)) 4))
      let filled (b : List Byte) (y : State) := ∃ t, s.elementRun cn n = .ended t 0 (decide (m.nrows ≤ e + 1)) ∧ t.net = y.net ∧
        ∀ k, t.mem.read k = if at_ ≤ k ∧ k < at_ + m.rowb then b.getD (k - at_) 0 else y.mem.read k
      (m.flags = 1 → (mask.isNan ∨ (fDec 8 m.thr).isNan ∨ mask.cmp (fDec 8 m.thr) ≤ 0) → filled [] s) ∧
      (m.flags ≠ 1 → s.readBytes acc (BitVec.ofNat 64 (m.src + e * m.rowb)) m.rowb = (.ok bs, v) → bs.length = m.rowb →
        v.mem.wf = true → filled bs v)) ∧
    (s.pendingTo cn (.scratch cn 0) = false → s.mem.wf = true →
      let at_ := accKey cn (16384 * (x.xa.toNat % 64) + 128 * (x.xa.toNat / 2 ^ 8 % 128 + 8 * e))
      ((∃ k d a t m, word = .aload k d a t m) →
        let size := min 4096 (src.bytes - 4096 * e)
        ∃ t, s.elementRun cn n = .ended t 0 (decide (src.bytes ≤ 4096 * e + 4096)) ∧ t.net = s.net ∧ ∀ k, t.mem.read k =
          if at_ ≤ k ∧ k < at_ + size then s.mem.read (scratchKey cn (src.base + 4096 * e + (k - at_))) else s.mem.read k) ∧
      ((∃ k d a t m, word = .astore k d a t m) →
        let size := min 4096 (dst.bytes - 4096 * e)
        open_ (dst.base + 4096 * e) size →
        ∃ t, s.elementRun cn n = .ended t 0 (decide (dst.bytes ≤ 4096 * e + 4096)) ∧ t.mem = s.mem ∧
          stores t (dst.base + 4096 * e) (s.mem.readN at_ size)))

/-- R229, R239, R240, R250, R251, R338, R339, R429: a sum collective of two cores that combines sends the wrapped sums to both destination
tiles; the shift of a matched MROT of a row of two tiles, one move that reads both tiles (log 40) once the match of their next MROTs (log
39) has ended its product steps, exchanges their A operands; an MCMD with the partition's key takes its place at the target's array, which
keeps its command (log 70), and one with another key, or with key 0x0000, faults with cause 0x16; a row reply joins its element; a
served request leaves its answer, and a device without a number serves no other. -/
def Obligations.EnginesTogether : Prop :=
  ∀ (s t : State) (cn n i die dom elem cause table id ver dev : Nat) (m0 m1 n0 n1 : Nat) (r : Req) (row bs : List Byte),
    n < 64 → n0 < 64 → n1 < 64 → s.mem.wf = true →
    let x0 := (s.core m0).ticket n0
    let x1 := (s.core m1).ticket n1
    let x := (s.core cn).ticket n
    (let src (m : Nat) (y : Ticket) : Tile := (s.core m).tile (y.stile.getD 0);
      let dst (m : Nat) (y : Ticket) : Tile := (s.core m).tile (y.dtile.getD 0);
      let ok (m : Nat) (y : Ticket) : Prop := y.ending = none ∧ s.pendingTo m (.scratch m 0) = false ∧ y.collOp = 1 ∧
        (src m y).bytes = (src m0 x0).bytes ∧ (src m y).bytes ≤ (dst m y).bytes ∧ (dst m y).base % 16 = 0 ∧
        (dst m y).base + (src m y).bytes ≤ 0x10000 ∧ y.sup = true ∧ (src m y).base + (src m y).bytes ≤ 0x10000;
      s.collMembers die dom = [(m0, some n0), (m1, some n1)] → s.collReady die dom = true → m0 ≠ m1 → ok m0 x0 → ok m1 x1 →
      0 < (src m0 x0).bytes → (src m0 x0).bytes % 4 = 0 →
      ∃ u, exec (.collectiveCombine die dom) s = .next u ∧ u.mem = s.mem ∧
        (u.core m0).ticket n0 = { x0 with running := true, answer := none, ending := some (0, true) } ∧
        (u.core m1).ticket n1 = { x1 with running := true, answer := none, ending := some (0, true) } ∧
        ∀ j, 4 * j < (src m0 x0).bytes →
          let sum := (leNat (s.mem.readN (scratchKey m0 ((src m0 x0).base + 4 * j)) 4) +
            leNat (s.mem.readN (scratchKey m1 ((src m1 x1).base + 4 * j)) 4)) % 2 ^ 32;
          let sent (m slot at_ : Nat) : Prop := ∃ q ∈ u.net, ∃ off ws, q.src = m ∧ q.slot = ticketSlot slot ∧
            q.home = .scratch m off ∧ q.op = .store ws 0 false ∧ off ≤ at_ ∧ at_ + 4 ≤ off + ws.length ∧ leAt ws (at_ - off) 4 = sum;
          sent m0 n0 ((dst m0 x0).base + 4 * j) ∧ sent m1 n1 ((dst m1 x1).base + 4 * j)) ∧
    (let c := matCmd x0.cmd;
      (s.core m0).rotating.find? (s.shiftReady m0) = some n0 → s.rotTickets m0 n0 c = [(m0, n0), (m1, n1)] → m0 ≠ m1 →
      c.ctl / 2 ^ 20 % 16 = 1 → fmtBytes c.afmt c.k ≤ c.astr → c.aaddr + 128 * c.mb * c.astr ≤ c.baddr →
      fmtBytes c.bfmt c.k ≤ c.bstr → c.baddr + 128 * c.nb * c.bstr ≤ 0x200000 →
      ∃ u, exec (.mrotShift m0) s = .next u ∧ ((u.core m0).ticket n0).st ≠ .faulted ∧ ((u.core m1).ticket n1).st ≠ .faulted ∧
        ∀ k < 128 * c.mb, ∀ j < fmtBytes c.afmt c.k,
        let off := c.aaddr + k * c.astr + j;
        u.mem.read (operandKey m0 off) = s.mem.read (operandKey m1 off) ∧
        u.mem.read (operandKey m1 off) = s.mem.read (operandKey m0 off)) ∧
    (∀ target cap kind seq, s.canPerform i = true → s.net[i]? = some r → r.op = .mcmd target cap kind bs n seq → r.src = cn →
      x.live = true → x.st = .pending → x.seq = seq →
      let key := (s.partFor target).key
      (cap = key → key ≠ 0 → ∃ u, exec (.mcmdArrival i) s = .next u ∧
        (u.core cn).ticket n = { x with cmd := bs, arrive := s.nextRid } ∧ getKey u.mcmds (mcmdKey cn n seq) = some bs ∧
        u.net = s.net.eraseIdx i ∧ u.mem = s.mem) ∧
      (cap ≠ key ∨ key = 0 → x.det = false → ∃ u, exec (.mcmdArrival i) s = .next u ∧ ((u.core cn).ticket n).cause = 0x16)) ∧
    (s.net = [r] → r.src = cn → r.op = .rowReq dev table id ver n elem → x.live = true → x.st = .pending → x.running = true →
      x.elem = elem → x.answer = none →
      (cause ∈ [0x07, 0x0F, 0x14] → ∃ u, exec (.rowReply cn n elem cause row) s = .next u ∧
        (u.core cn).ticket n = { x with answer := some (cause, []) } ∧ u.net = [] ∧ u.mem = s.mem) ∧
      (row.length = 16 * ((x.cmd.getD 0x10 0).toNat + 1) → ∃ u, exec (.rowReply cn n elem 0 row) s = .next u ∧
        (u.core cn).ticket n = { x with answer := some (0, row) } ∧ u.net = [] ∧ u.mem = s.mem)) ∧
    (dev < 0xFFFF → s.dev.number = none → exec (.rowRequest dev cn n elem table id ver) s = .next s) ∧
    (dev = 0xFFFF ∨ s.dev.number ≠ none →
      (s.isLocal dev = false → s.serveRow table id ver = (.ok row, t) →
        exec (.rowRequest dev cn n elem table id ver) s = .next t) ∧
      (s.isLocal dev = true → s.serveRow table id ver = (.ok row, t) →
        exec (.rowRequest dev cn n elem table id ver) s = exec (.rowReply cn n elem 0 row) t) ∧
      (s.isLocal dev = true → s.serveRow table id ver = (.error cause, t) → cause ∈ [0x07, 0x0F, 0x14] →
        exec (.rowRequest dev cn n elem table id ver) s = exec (.rowReply cn n elem cause []) t))

/-! ### Traffic (R169, R179, R191, R193 to R196, R201, R226, R257, R368, R369, R401) -/

/-- R169, R179, R191, R194 to R196, R201, R226, R257, R368, R401: what the home of a request does with it: a step tag is STEP; a TSTEP
adds one to STEP; a contribution to a STEPPED table is buffered; VPUB writes the version of the other half and makes it active;
SHIP updates its storage; an armed operation departs in its slot, after what its source has sent and before what waited for it, and is
performed at its arrival, where nothing earlier holds it; one that collides arrives later (by how much is open, log 48); a lost word is
owned no more; a reply reaches its register; a divider is free again after its cycles. -/
def Obligations.RequestsTakeEffect : Prop :=
  ∀ (s : State) (i : Nat) (r : Req) (cn off : Nat), s.mem.wf = true →
    let at_ := scratchKey cn off
    let word := leNat (s.mem.readN at_ 8)
    let asked := s.net[i]? = some r
    let here := asked ∧ s.canPerform i = true ∧ r.home = .scratch cn off ∧ s.quarantined cn = false ∧ r.slot < 12
    let only (t : State) (n : Nat) (bs : List Byte) : Prop := bs.length = n ∧
      ∀ a, t.mem.read a = if at_ ≤ a ∧ a < at_ + n then bs.getD (a - at_) 0 else s.mem.read a
    (∀ desc pc d l, here → r.op = .stepTag desc → s.grantsHeld desc = false →
      (s.strand r.src r.slot).holds = [(pc, .tilesAsked d l r.rid)] →
      exec (.stepTagGrant i) s = .next ((s.dropReq i).modStrand r.src r.slot fun u =>
        { u with holds := [(pc, .tilesGranted d l desc (BitVec.ofNat 64 word))] })) ∧
    (∀ desc mode k seq waits pc, here → r.op = .tstep desc mode k seq waits → mode < 2 → s.stepBlocked desc mode k word = false →
      getKey s.stepped r.src ≠ some seq → s.lossesOf r.src r.slot = false → (s.strand r.src r.slot).holds = [(pc, .reply r.rid)] →
      ∃ t, exec (.tstepRequest i) s = .next t ∧ only t 8 (leBytes 8 (word + 1)) ∧
        (t.strand r.src r.slot).holds = [(pc, .replied 0 none)] ∧ getKey t.stepped r.src = some seq) ∧
    (∀ u : RowUpd, asked → s.canPerform i = true → r.op = .row u → u.mode = 2 → (s.part u.part).status ≠ .fatal →
      s.rowWaiting u = false →
      exec (.rowUpdate i) s = .next ({ s with net := s.net.eraseIdx i, buffered := s.buffered ++ [u] } : State)) ∧
    (∀ desc ver, here → r.op = .vpub desc ver →
      let old := s.mem.readN at_ 32
      let h := 1 - leAt old 4 1 % 2
      leAt old (8 + 4 * h) 4 = 0 → ver ≠ leAt old (2 * (1 - h)) 2 → ver < 2 ^ 16 →
      ∃ t new, exec (.weightSetRequest i) s = .next t ∧ only t 32 new ∧ leAt new (2 * h) 2 = ver ∧
        leAt new (2 * (1 - h)) 2 = leAt old (2 * (1 - h)) 2 ∧ leAt new 4 1 % 2 = h ∧
        leAt new 16 8 = (leAt old 16 8 + 1) % 2 ^ 64 ∧ slice new 8 8 = slice old 8 8) ∧
    (∀ op v pa home pol hf, asked → r.op = .ship op v true → r.home = .line pa home pol hf → pa % 8 = 0 → op ∈ [0, 2, 3, 4, 5] →
      s.poison.contains (s.poisonKey pa) = false → v < 2 ^ 64 →
      let old := leNat ((List.range 8).map fun j => s.mem.read (s.storeKey (pa + j)))
      ∃ t, exec (.shipApply i) s = .next t ∧
        leNat ((List.range 8).map fun j => t.mem.read (s.storeKey (pa + j))) =
          (match op with
            | 0 => (old + v) % 2 ^ 64
            | 2 => min old v
            | 3 => max old v
            | 4 => old ||| v
            | _ => old &&& v) ∧
        ∀ a, (∀ j < 8, a ≠ s.storeKey (pa + j)) → t.mem.read a = s.mem.read a) ∧
    (∀ c bs hint, asked → r.op = .store bs hint false → r.home = .scratch cn off → r.depart = some c →
      let arrives := c + if dieOf r.src = dieOf cn then 24 else 40
      let rest := s.net.eraseIdx i
      let waited (q : Req) : Bool := !q.armed && s.issuedBefore r q && q.goesTo (.scratch cn off)
      let leaves (d : Nat) : List Req := rest.filter (fun q => !waited q) ++ [{ r with due := some d }] ++ rest.filter waited
      (r.due = none → c ≤ s.cycle → s.net.any r.collides = false →
        exec (.scheduledDeparture i) s = .next { s with net := leaves arrives }) ∧
      (r.due = none → c ≤ s.cycle → s.net.any r.collides = true →
        ∃ t d, exec (.scheduledDeparture i) s = .next t ∧ t.net = leaves d ∧ arrives < d ∧ t.mem = s.mem) ∧
      (∀ d, r.due = some d → d ≤ s.cycle → s.arrivalHeld i r = false → r.slot < 12 → s.quarantined cn = false → r.og = none →
        s.lockRefuses r.sup r.home bs.length = false →
        ∃ t, exec (.scheduledArrival i) s = .next t ∧ only t bs.length bs ∧ t.net = s.net.eraseIdx i)) ∧
    (∀ w loser c taker x, asked → s.canPerform i = true → r.op = .loss w loser c taker → getKey s.owner w ≠ some loser →
      taker ≠ some loser → getKey (s.core loser).near w = some x →
      ∃ t, exec (.lossNotice i) s = .next t ∧ getKey (t.core loser).near w = some { x with owned := false } ∧
        t.net = s.net.eraseIdx i ∧ t.mem = s.mem) ∧
    (∀ (n slot j : Nat) (p : Pend) (v : BitVec 128), slot < 12 → (s.strand n slot).pend[j]? = some p → p.val = some v →
      p.turns = none → (s.strand n slot).mid = none →
      (∀ d, p.reg = .x d → exec (.registerWriteback n slot j) s = .next (s.modStrand n slot fun u =>
        { u.setX d (v.setWidth 64) with pend := u.pend.eraseIdx j })) ∧
      (∀ d, p.reg = .v d → (isDense n = true ∨ (s.core n).regs.claim ≠ some slot ∨ d < 12) → (s.strand n slot).await = none →
        exec (.registerWriteback n slot j) s = .next (s.modStrand n slot fun u =>
          { u.setV d v with pend := u.pend.eraseIdx j }))) ∧
    (∀ n slot, (s.strand n slot).divFree ≠ 0 → (s.strand n slot).divFree ≤ s.cycle →
      exec (.dividerRelease n slot) s = .next (s.modStrand n slot fun u => { u with divFree := 0 }))


/-! ### The host boundary (R47, R162, R192, R221, R279 to R281, R286 to R292, R294, R297) -/

/-- R47, R192, R221, R241, R286, R287, R294, R297: what a write of each host register through the physical function does; without PCI
Express functions a host write is ignored (log 50), and one through a virtual function to a register that it does not reach has no
effect. The partition's own write of LCONS counts an MSI-X when it advances the index (backwards, by the 32-bit difference, is no
advance). Writes of ROUTBASE and DOMLOAD queue their loads (log 45): that of the routine table is performed, with ROUTBASE, when it is
done, and like that of a barrier domain takes the bytes it reads. -/
def Obligations.HostRegisters : Prop :=
  ∀ (s t : State) (p cn page off : Nat) (v : BitVec 64) (x : Machine.Part) (bs : List Byte), s.part? p = some x →
    let dev (f : DeviceRegs → DeviceRegs) : State := { s with dev := f s.dev }
    let part (f : Machine.Part → Machine.Part) : State := s.setPart p (f x)
    (s.dev.linked = false → exec (.registerWrite page off v) s = .next s ∧ exec (.lnotify p v) s = .next s ∧
      exec (.eqcons page v) s = .next s ∧ exec (.create p) s = .next s ∧ exec (.destroy p) s = .next s ∧ exec (.pcap v) s = .next s ∧
      exec (.gangStop p) s = .next s ∧ exec (.restore p) s = .next s ∧ exec (.reissue p) s = .next s ∧
      (x.holds cn = false → exec (.routbase p cn v) s = .next s ∧ exec (.domload p cn v) s = .next s)) ∧
    (∀ f, s.dev.function = some f →
      (page ≠ 0x100 + f ∨ (off ≠ 0x000 ∧ off ≠ 0x018 ∧ (off < 0x020 ∨ 0x038 < off)) → exec (.registerWrite page off v) s = .next s) ∧
      (x.holds cn = false → exec (.routbase p cn v) s = .next s ∧ exec (.domload p cn v) s = .next s) ∧
      (p ≠ f → exec (.lnotify p v) s = .next s ∧ exec (.gangStop p) s = .next s ∧ exec (.restore p) s = .next s ∧
        exec (.reissue p) s = .next s) ∧ exec (.create p) s = .next s ∧ exec (.destroy p) s = .next s ∧
      exec (.pcap v) s = .next s) ∧
    (s.dev.linked = true → s.dev.function = none →
      exec (.registerWrite 0 0x050 v) s = .next (dev fun r => { r with sqCons := v.toNat }) ∧
      exec (.registerWrite 0 0x058 v) s = .next (dev fun r => { r with ftbase := v }) ∧
      exec (.registerWrite 0 0x060 v) s = .next (dev fun r => { r with ftcount := v.toNat % 2 ^ 17 }) ∧
      (0x8000 ≤ off → off < 0x8400 → off % 8 = 0 → exec (.registerWrite 0 off v) s = .next
        { s with mem := s.mem.writeN (crecKey (off - 0x8000)) (leBytes 8 v.toNat) }) ∧
      (0x140 ≤ page → exec (.registerWrite page off v) s = .next s) ∧
      exec (.pcap v) s = .next (if 600 ≤ v.toNat % 2 ^ 12 ∧ v.toNat % 2 ^ 12 ≤ 2100 then
        dev fun r => { r with pcap := v.toNat % 2 ^ 12 } else s) ∧
      (s.dev.command = none → exec (.create p) s = .next
        (dev fun r => { r with command := some (1, p % 64), cstat := 1, creason := 0 })) ∧
      (p < 64 → x.eq.drops = 0 → exec (.eqcons (0x100 + p) v) s = .next (part fun y => { y with eq := { y.eq with cons := v.toNat } })) ∧
      (s.dev.eq.drops = 0 → exec (.eqcons 0 v) s = .next (dev fun r => { r with eq := { r.eq with cons := v.toNat } })) ∧
      (s.net = [] → (s.core x.lead).heldIn = [] → ∃ u, exec (.lnotify p v) s = .next u ∧
        u.part? p = some { x with notify := some (v.toNat % 2 ^ 32) } ∧ (∃ r, u.net = [r] ∧ r.home = .owner x.lead ∧ r.part = p ∧
          ∃ m, r.op = .send m ∧ m.srcCn = 0xFFFF ∧ m.srcDev = 0 ∧ m.payload = [BitVec.ofNat 64 (v.toNat % 2 ^ 32)] ∧
            m.target = BitVec.ofNat 64 (x.key * 2 ^ 48 + 0xFFFF * 2 ^ 16 + x.lead)) ∧ u.cores = s.cores ∧ u.mem = s.mem)) ∧
    (let ahead := (v.toNat + 2 ^ 32 - x.lcons) % 2 ^ 32;
      exec (.lcons p v) s = .next (part fun y => { y with
        lcons := v.toNat % 2 ^ 32, msix := y.msix + if 0 < ahead ∧ ahead < 2 ^ 31 then 1 else 0 })) ∧
    (x.holds cn = true ∨ (s.dev.linked = true ∧ s.dev.function = none) →
      exec (.routbase p cn v) s = .next (part fun y => { y with
        routload := y.routload ++ [(if x.holds cn then some (cn, s.nextRid) else none, v)] }) ∧
      exec (.domload p cn v) s = .next (part fun y => { y with
        domload := y.domload ++ [(if x.holds cn then some (cn, s.nextRid) else none, v.toNat % 128)] })) ∧
    (∀ a later, x.routload = (none, a) :: later →
      let base := a.toNat / 2 ^ 8 * 2 ^ 8
      (part fun y => { y with routload := later, routbase := BitVec.ofNat 64 base }).supRead x.lead p base 17 256 = (.ok bs, t) →
      exec (.routineLoadDone p) s = .next (t.modPart p fun y => { y with routines := bs })) ∧
    (∀ w later, x.domload = (none, w) :: later →
      let u := part fun y => { y with domload := later }
      u.supRead x.lead p ((s.core x.lead).regs.bdtab.toNat + 128 * (w % 64)) 9 128 = (.ok bs, t) →
      t.domainReason p (w / 64) (w % 64) (some bs) = 0 → w < 128 →
      exec (.domainLoadDone p) s = .next { t with doms := putKey t.doms w (domainOf p bs) })

/-- R279 to R281, R288 to R291, R294, R297: the life of a partition: a creation whose record is refused ends with its reason (of several,
the lowest: log 45), and an accepted one starts every core at the entry; a gang stop asks, saves and marks the partition; a restore
loads every core from its area (the partition's registers from the last one: log 88) and lets it run again; re-issue starts a fatally
stopped partition anew with the creation record's ALIST and home registers; destruction removes it; the throttle is at most 48. -/
def Obligations.PartitionsComeAndGo : Prop :=
  ∀ (s t : State) (p : Nat) (x : Machine.Part),
    let reached := s.dev.linked = true ∧ (s.dev.function = none ∨ s.dev.function = some p)
    let ended (stat reason : Nat) : State := { s with dev := { s.dev with
      command := none, cstat := stat, creason := reason, msix := s.dev.msix + 1 } }
    (s.dev.command = some (1, p) → s.createReason p s.crecPart ≠ 0 →
      exec .creationDone s = .next (ended 3 (s.createReason p s.crecPart))) ∧
    (s.dev.command = some (1, p) → s.createReason p s.crecPart = 0 → s.crecPart.follow = 0 →
      ∃ u, exec .creationDone s = .next u ∧ u.part? p = some s.crecPart ∧ u.dev.command = none ∧ u.dev.cstat = 2 ∧
        ∀ cn ∈ s.crecPart.cores, (u.strand cn 0).live = true ∧ (u.strand cn 0).sup = true ∧
          (u.strand cn 0).pc = s.crecPart.tmpl.entry ∧ (∀ i, 0 < i → i < 12 → (u.strand cn i).live = false) ∧
          ∀ off < 0x10000, u.mem.read (scratchKey cn off) = 0) ∧
    (s.dev.linked = true → s.dev.function = none → s.dev.command = none → s.part? p = none → exec (.destroy p) s = .next (ended 3 3)) ∧
    (s.dev.linked = true → s.dev.function = none → s.dev.command = none → s.part? p = some x → (rising s.parts = true) →
      (x.refs[0]?.getD false = false ∧ x.refs[1]?.getD false = false) →
      ∃ u, exec (.destroy p) s = .next u ∧ u.part? p = none ∧ u.dev.cstat = 2 ∧ (∀ k, k ≠ p → u.part? k = s.part? k) ∧
        (∀ r ∈ u.net, r.part = p → ∃ w c h k, r.op = .loss w c h k ∧ x.holds c = false) ∧ u.mem = s.mem) ∧
    (s.part? p = some x → reached →
      exec (.gangStop p) s = .next (s.setPart p (if x.status = .running then { x with status := .stopping, stop := true } else x))) ∧
    (s.part? p = some x → s.canSave p = true → (s.withdraw p).saveCores p x.cores = .ok t → t.part? p = some x → x.eq.drops = 0 →
      ∃ u, exec (.gangStopSave p) s = .next u ∧ (u.part p).status = .saved ∧ (u.part p).saved = true ∧ u.cores = t.cores) ∧
    (s.part? p = some x → reached → x.saved = true → s.loadCores p x.cores = .ok t →
      exec (.restore p) s = .next (((t.startRefs p).dropRefs p).modPart p fun y =>
        { y with saved := false, stop := false, status := .running, hgSet := [] })) ∧
    (let loaded (l : List (Nat × List Byte)) (v : State) : State :=
        l.foldl (fun u a => (u.unpackCore a.1 a.2 true).modPart p fun y => y.load a.2) v;
      (∀ l v, s.readAreas p x.cores = .ok (l, v) → s.loadCores p x.cores = .ok (loaded l v)) ∧
      ∀ areas cn bs, s.part? p = some x →
        let reg (k : Nat) : Nat := leAt bs (0x15400 + 8 * k) 8
        let y := (loaded (areas ++ [(cn, bs)]) s).part p
        y.ptroot = BitVec.ofNat 64 (reg 0x60) ∧ y.fpool = BitVec.ofNat 64 (reg 0x61) ∧ y.alist = alistBits (reg 0x62) ∧
        ∀ i < 7, i ∉ x.hgSet → y.hg[i]? = some (hgBits (reg (0x40 + i)))) ∧
    (s.part? p = some x → x.saved = false → exec (.restore p) s = .next s) ∧
    (s.part? p = some x → reached → x.status = .fatal → ∃ u, exec (.reissue p) s = .next u ∧ (u.part p).status = .running ∧
      (u.part p).vsel = x.vsel ∧ (u.part p).eq = x.eq ∧ (u.part p).alist = x.alist0 ∧ (u.part p).hg = x.hg0 ∧ ∀ cn ∈ x.cores, (u.strand cn 0).live = true ∧
        (u.strand cn 0).pc = x.tmpl.entry ∧ ∀ off < 0x10000, u.mem.read (scratchKey cn off) = 0) ∧
    (∃ f ≤ 48, exec .throttleUpdate s = .next (if (s.cycle + 1) % 1000000 = 0 then { s with dev := { s.dev with throt := f } } else s))

/-! ### The module and its memories (R40 to R46, R162 to R164, R276, R284, R285, R292, R295 to R297, R429) -/

/-- R164, R276, R284, R285, R295 to R297, R429: the loss of power leaves the module's and the staged firmware images only (log 59), and
power-on starts without partitions, with a staged image in place of all the module's (log 16), functions only where every image
verifies, and the measurements of those that run; firmware is staged once it verifies; 0xFFFF is no device number; an extent is
granted once, released when its last access has ended, and revoked by force; corrected errors are counted and reported once a period;
an uncorrectable one poisons a line or stops the partition, and so does a watchdog whose strand has reached its limit. -/
def Obligations.TheModule : Prop :=
  ∀ (s : State) (e p dev die loc cn slot : Nat) (n : BitVec 16) (image : List Byte) (x : Extent),
    let d (f : DeviceRegs → DeviceRegs) : State := { s with dev := f s.dev }
    (∃ u, exec .powerLoss s = .next u ∧ u.powered = false ∧ u.mem = [] ∧ u.parts = [] ∧ u.dev.linked = false ∧
      u.dev.images = s.dev.images ∧ u.dev.staged = s.dev.staged) ∧
    (s.powered = false → ∃ u, exec .powerOn s = .next u ∧ u.powered = true ∧
      u.dev.images = (match s.dev.staged with | some i => [i] | none => s.dev.images) ∧
      u.dev.linked = u.dev.images.all Config.lmsValid ∧ u.dev.running = u.dev.images.filter Config.lmsValid ∧ u.dev.measured = u.dev.running.map Config.sha256 ∧ u.parts = [] ∧ u.cores = [] ∧ u.dev.pcap = 2100) ∧
    (s.powered = true → exec .powerOn s = .next s) ∧
    (s.dev.linked = true → exec (.firmwareUpdate image) s = .next
      (if Config.lmsValid image then d fun r => { r with staged := some image } else s)) ∧
    exec .spdmMeasurements s = .next (d fun r => { r with measured := r.running.map Config.sha256 }) ∧
    exec (.deviceNumber n) s = .next (if n = 0xFFFF then s else d fun r => { r with number := some n.toNat }) ∧
    (s.extent? e = none → (s.part? p).isSome = true → e < 2 ^ 22 →
      ∃ u, exec (.extentGrant e p dev) s = .next u ∧ u.extent? e = (if s.reaches dev then
          some { num := e, part := p, dev := dev, releasing := false, revoked := false } else none) ∧
        (∀ k, k ≠ e → u.extent? k = s.extent? k) ∧ u.mem = s.mem) ∧
    (s.dev.extents = [x] → x.revoked = false →
      exec (.extentRelease x.num) s = .next (d fun r => { r with extents := [{ x with releasing := true }] }) ∧
      (x.releasing = true → s.l2 = [] → s.frameInUse (2 * 2 ^ 52 + x.num * 2 ^ 30) (2 ^ 30) = false → exec (.extentReleaseAck x.num) s = .next
        (d fun r => { r with extents := [{ x with releasing := false, revoked := true }] })) ∧
      (∃ u, exec (.forcedRevocation x.num) s = .next u ∧
        u.extent? x.num = some { x with releasing := false, revoked := true } ∧
        ∀ l ∈ u.l2, linePa l.1 < 2 * 2 ^ 52 + x.num * 2 ^ 30 ∨ 2 * 2 ^ 52 + x.num * 2 ^ 30 + 2 ^ 30 ≤ linePa l.1)) ∧
    exec (.correctedError die) s = .next (d fun r => { r with
      corrected := r.corrected.setIfInBounds die ((r.corrected[die]?.getD 0) + 1) }) ∧
    (∀ l, getKey s.l2 loc = some l → l.dirty ≠ 0 →
      exec (.uncorrectableError 0 loc) s = .next { s with l2 := putKey s.l2 loc { l with poison := true } }) ∧
    (∃ u, exec (.uncorrectableError 1 loc) s = .next u ∧ loc ∈ u.poison ∧ u.mem = s.mem) ∧
    (s.partOf? cn = some p → cn < 2 ^ 16 → (s.part? p).isSome = true → ∃ u, exec (.uncorrectableError 4 cn) s = .next u ∧
      (u.part p).status = .fatal) ∧
    ((s.cycle + 1) % 1000000 = 0 → die < 2 → (s.dev.corrSeen[die]?.getD 0) < (s.dev.corrected[die]?.getD 0) → s.parts = [] → s.dev.eq.drops = 0 →
      s.dev.eq.prod - s.dev.eq.cons < 256 → ∃ u, exec (.errorCountReport die) s = .next u ∧ u.dev.corrected[die]? = some 0 ∧
        u.dev.eq.prod = s.dev.eq.prod + 1 ∧ u.dev.msix = s.dev.msix + 1) ∧
    ((s.cycle + 1) % 1000000 ≠ 0 ∨ ((s.dev.corrected[die]?.getD 0) ≤ (s.dev.corrSeen[die]?.getD 0) ∧ s.parts = []) →
      exec (.errorCountReport die) s = .next s) ∧
    (s.watchdogDue cn slot = true → s.partOf? cn = some p → ∃ u, exec (.watchdog cn slot) s = .next u ∧
      (u.part p).status = .fatal) ∧
    (s.watchdogDue cn slot = false → exec (.watchdog cn slot) s = .next s)

/-- R40 to R46, R162, R163: the home core of a task writes its record and answers with the handle, a counter that reaches zero queues
the task at its level, an aged task moves up one level; the hot-page period ends with fresh counts; a page move, one move that sends
every request to the page on to its new home (log 47), switches the page to its new frame with its bytes. -/
def Obligations.TasksAndPages : Prop :=
  ∀ (s : State) (i cn off : Nat) (r : Req), off % 32 = 0 → off < 0x10000 → s.mem.wf = true →
    let x := s.taskRec cn off
    let here := s.net[i]? = some r ∧ s.canPerform i = true ∧ r.home = .scratch cn off ∧ s.quarantined cn = false
    (∀ spec sup, here → r.op = .task off spec sup → spec.length = 24 → (recState x = 0 ∨ recState x = 3) → leAt spec 0x14 2 ≠ 0 →
      ∃ t, exec (.taskRequest i) s = .next t ∧ recState (t.taskRec cn off) = 1 ∧ recEntry (t.taskRec cn off) = leAt spec 0 7 ∧
        recArg (t.taskRec cn off) = leAt spec 8 8 ∧ recTaskNo (t.taskRec cn off) = leAt spec 16 4 ∧
        recCounter (t.taskRec cn off) = leAt spec 0x14 2 ∧ recPrio (t.taskRec cn off) = leAt spec 0x16 2 % 4 ∧
        (∀ a, a < scratchKey cn off ∨ scratchKey cn off + 32 ≤ a → t.mem.read a = s.mem.read a) ∧
        t.net[i]? = some { r with op := .taskAck (taskHandle (leAt spec 16 4) off cn) none, home := .owner (0x20000 + r.src) }) ∧
    (∀ spec sup, here → r.op = .task off spec sup → (recState x = 1 ∨ recState x = 2) →
      ∃ t, exec (.taskRequest i) s = .next t ∧ t.mem = s.mem ∧ t.net[i]? = some { r with
        op := .taskAck 0 (some (0x07, BitVec.ofNat 64 (globalScratch cn off))), home := .owner (0x20000 + r.src) }) ∧
    (∀ h pc, s.net[i]? = some r → s.canPerform i = true → r.op = .taskAck h none → r.slot < 12 →
      (s.strand r.src r.slot).holds = [(pc, .reply r.rid)] →
      exec (.taskAck i) s = .next ((s.dropReq i).modStrand r.src r.slot fun u => { u with holds := [(pc, .replied h none)] })) ∧
    (∀ h : Word, here → r.op = .decr h → h.toNat / 2 ^ 16 % 2 ^ 16 = off → recTaskNo x = h.toNat / 2 ^ 32 → recState x = 1 →
      (2 ≤ recCounter x → ∃ t, exec (.decrement i) s = .next t ∧ recCounter (t.taskRec cn off) = recCounter x - 1 ∧
        recState (t.taskRec cn off) = 1 ∧ t.cores = s.cores) ∧
      (recCounter x = 1 → (s.core cn).runList = .replicate 4 [] → ∃ t, exec (.decrement i) s = .next t ∧
        recState (t.taskRec cn off) = 2 ∧ (t.core cn).level (recPrio x) = [(off, s.cycle)])) ∧
    (∀ c, (s.core cn).runList = (Vector.replicate 4 []).set 0 [(off, c)] → c + 65536 ≤ s.cycle →
      ∃ t, exec (.taskAging cn) s = .next t ∧ (t.core cn).level 0 = [] ∧ (t.core cn).level 1 = [(off, s.cycle)] ∧
        recState (t.taskRec cn off) = 2) ∧
    ((s.cycle + 1) % 1000000 = 0 → ∃ t, exec .hotPagePeriod s = .next t ∧ t.hot = [] ∧ t.mem = s.mem ∧ t.cores = s.cores) ∧
    ((s.cycle + 1) % 1000000 ≠ 0 → exec .hotPagePeriod s = .next s) ∧
    (∀ m, s.moves = [m] → s.pageHeld m.page = false → s.l2 = [] → m.dest ≠ m.page →
      ∃ t, exec (.pageMoveSwitch 0) s = .next t ∧ t.moves = [] ∧ t.net = s.net.map (t.forward m.page) ∧ t.storagePage m.page = m.dest ∧
        s.storagePage m.page ∈ t.reserve ∧
        (∀ j < 2 ^ 16, t.mem.read (m.dest * 2 ^ 16 + j) = s.mem.read (s.storagePage m.page * 2 ^ 16 + j)) ∧
        ∀ a, a < m.dest * 2 ^ 16 ∨ m.dest * 2 ^ 16 + 2 ^ 16 ≤ a → t.mem.read a = s.mem.read a)
end

