-- ==== Sys2Proof/Laws/Keys.lean ====
section
/-! SUPPORT. Collections with rising keys and the canonical form of memory: reads after writes, and that every memory
operation keeps the form (log 1). -/
namespace Sys2Proof.Machine

variable {β : Type}

/-! ### Keys -/

/-- Every key of a list lies above a bound. -/
def above (a : Nat) (m : List (Nat × β)) : Prop := ∀ c ∈ m, a < c.1

theorem rising_cons {a : Nat} {b : β} {m : List (Nat × β)} : rising ((a, b) :: m) = true ↔ above a m ∧ rising m = true := by
  induction m generalizing a b with
  | nil => simp [rising, above]
  | cons c r ih =>
    obtain ⟨k, v⟩ := c
    constructor
    · intro h
      simp only [rising, Bool.and_eq_true, decide_eq_true_eq] at h
      refine ⟨?_, h.2⟩
      intro x hx
      rcases List.mem_cons.1 hx with rfl | hx
      · exact h.1
      · exact Nat.lt_trans h.1 ((ih.1 h.2).1 x hx)
    · intro h
      simp only [rising, Bool.and_eq_true, decide_eq_true_eq]
      exact ⟨h.1 (k, v) (List.mem_cons_self ..), h.2⟩

theorem getKey_none_of_above {a k : Nat} {m : List (Nat × β)} (h : above a m) (hk : k ≤ a) : getKey m k = none := by
  induction m with
  | nil => rfl
  | cons c r ih =>
    obtain ⟨l, v⟩ := c
    have hl : a < l := h (l, v) (List.mem_cons_self ..)
    have hr : above a r := fun x hx => h x (List.mem_cons_of_mem _ hx)
    simp only [getKey, if_neg (by omega : ¬ l = k), ih hr]

@[simp] theorem getKey_putKey_same (m : List (Nat × β)) (a : Nat) (b : β) : getKey (putKey m a b) a = some b := by
  induction m with
  | nil => simp [putKey, getKey]
  | cons c r ih =>
    obtain ⟨k, v⟩ := c
    simp only [putKey]
    split
    · simp [getKey]
    · split
      · simp [getKey]
      · rename_i h1 h2
        simp only [getKey, if_neg (by omega : ¬ k = a), ih]

theorem getKey_putKey_other (m : List (Nat × β)) {a k : Nat} (b : β) (h : k ≠ a) : getKey (putKey m a b) k = getKey m k := by
  induction m with
  | nil => simp [putKey, getKey, h.symm]
  | cons c r ih =>
    obtain ⟨l, v⟩ := c
    simp only [putKey]
    split
    · simp [getKey, h.symm]
    · split
      · rename_i h2
        subst h2
        simp [getKey, h.symm]
      · simp only [getKey, ih]

theorem above_putKey {a k : Nat} {b : β} {m : List (Nat × β)} (h : above k m) (hk : k < a) : above k (putKey m a b) := by
  induction m with
  | nil => intro x hx; simp only [putKey, List.mem_singleton] at hx; subst hx; exact hk
  | cons c r ih =>
    obtain ⟨l, v⟩ := c
    have hr : above k r := fun x hx => h x (List.mem_cons_of_mem _ hx)
    have hl : k < l := h (l, v) (List.mem_cons_self ..)
    intro x hx
    simp only [putKey] at hx
    split at hx
    · rcases List.mem_cons.1 hx with rfl | hx
      · exact hk
      · exact h x hx
    · split at hx
      · rcases List.mem_cons.1 hx with rfl | hx
        · exact hk
        · exact hr x hx
      · rcases List.mem_cons.1 hx with rfl | hx
        · exact hl
        · exact ih hr x hx

theorem rising_putKey {m : List (Nat × β)} (a : Nat) (b : β) (h : rising m = true) : rising (putKey m a b) = true := by
  induction m with
  | nil => rfl
  | cons c r ih =>
    obtain ⟨k, v⟩ := c
    obtain ⟨ha, hr⟩ := rising_cons.1 h
    simp only [putKey]
    split
    · rename_i hlt
      refine rising_cons.2 ⟨fun x hx => ?_, h⟩
      rcases List.mem_cons.1 hx with rfl | hx
      · exact hlt
      · exact Nat.lt_trans hlt (ha x hx)
    · split
      · rename_i he
        subst he
        exact rising_cons.2 ⟨ha, hr⟩
      · exact rising_cons.2 ⟨above_putKey ha (by omega), ih hr⟩

theorem mem_delKey {m : List (Nat × β)} {a : Nat} {x : Nat × β} (h : x ∈ delKey m a) : x ∈ m := by
  induction m with
  | nil => exact h
  | cons c r ih =>
    obtain ⟨k, v⟩ := c
    simp only [delKey] at h
    split at h
    · exact List.mem_cons_of_mem _ h
    · rcases List.mem_cons.1 h with rfl | h
      · exact List.mem_cons_self ..
      · exact List.mem_cons_of_mem _ (ih h)

theorem rising_delKey {m : List (Nat × β)} (a : Nat) (h : rising m = true) : rising (delKey m a) = true := by
  induction m with
  | nil => rfl
  | cons c r ih =>
    obtain ⟨k, v⟩ := c
    obtain ⟨ha, hr⟩ := rising_cons.1 h
    simp only [delKey]
    split
    · exact hr
    · exact rising_cons.2 ⟨fun x hx => ha x (mem_delKey hx), ih hr⟩

theorem getKey_delKey_other (m : List (Nat × β)) {a k : Nat} (h : k ≠ a) : getKey (delKey m a) k = getKey m k := by
  induction m with
  | nil => rfl
  | cons c r ih =>
    obtain ⟨l, v⟩ := c
    simp only [delKey]
    split
    · rename_i he
      subst he
      simp [getKey, h.symm]
    · simp only [getKey, ih]

theorem getKey_delKey_same {m : List (Nat × β)} (a : Nat) (h : rising m = true) : getKey (delKey m a) a = none := by
  induction m with
  | nil => rfl
  | cons c r ih =>
    obtain ⟨k, v⟩ := c
    obtain ⟨ha, hr⟩ := rising_cons.1 h
    simp only [delKey]
    split
    · rename_i he
      subst he
      exact getKey_none_of_above ha (Nat.le_refl _)
    · rename_i he
      simp only [getKey, if_neg he, ih hr]

theorem rising_filter {m : List (Nat × β)} (p : Nat × β → Bool) (h : rising m = true) : rising (m.filter p) = true := by
  induction m with
  | nil => rfl
  | cons c r ih =>
    obtain ⟨k, v⟩ := c
    obtain ⟨ha, hr⟩ := rising_cons.1 h
    by_cases hp : p (k, v) = true
    · rw [List.filter_cons_of_pos hp]
      exact rising_cons.2 ⟨fun x hx => ha x (List.mem_filter.1 hx).1, ih hr⟩
    · rw [List.filter_cons_of_neg hp]
      exact ih hr

theorem rising_append {m n : List (Nat × β)} (hm : rising m = true) (hn : rising n = true)
    (h : ∀ x ∈ m, ∀ y ∈ n, x.1 < y.1) : rising (m ++ n) = true := by
  induction m with
  | nil => exact hn
  | cons c r ih =>
    obtain ⟨k, v⟩ := c
    obtain ⟨ha, hr⟩ := rising_cons.1 hm
    refine rising_cons.2 ⟨fun x hx => ?_, ih hr fun x hx => h x (List.mem_cons_of_mem _ hx)⟩
    rcases List.mem_append.1 hx with hx | hx
    · exact ha x hx
    · exact h (k, v) (List.mem_cons_self ..) x hx

/-! ### The canonical form of memory (log 1) -/

theorem Memory.wf_iff {m : Memory} : m.wf = true ↔ rising m = true ∧ ∀ c ∈ m, c.2 ≠ 0 := by
  simp [Memory.wf]

theorem Memory.wf_nil : Memory.wf [] = true := rfl

theorem mem_putKey {m : List (Nat × β)} {a : Nat} {b : β} {x : Nat × β} (h : x ∈ putKey m a b) : x = (a, b) ∨ x ∈ m := by
  induction m with
  | nil => exact Or.inl (List.mem_singleton.1 h)
  | cons c r ih =>
    obtain ⟨k, v⟩ := c
    simp only [putKey] at h
    split at h
    · exact List.mem_cons.1 h
    · split at h
      · rcases List.mem_cons.1 h with h | h
        · exact Or.inl h
        · exact Or.inr (List.mem_cons_of_mem _ h)
      · rcases List.mem_cons.1 h with h | h
        · exact Or.inr (h ▸ List.mem_cons_self ..)
        · exact (ih h).imp_right (List.mem_cons_of_mem _)

theorem Memory.write_wf {m : Memory} (a : Nat) (b : Byte) (h : m.wf = true) : (m.write a b).wf = true := by
  obtain ⟨hr, hz⟩ := Memory.wf_iff.1 h
  unfold Memory.write
  split
  · exact Memory.wf_iff.2 ⟨rising_delKey a hr, fun c hc => hz c (mem_delKey hc)⟩
  · rename_i hb
    refine Memory.wf_iff.2 ⟨rising_putKey a b hr, fun c hc => ?_⟩
    rcases mem_putKey hc with rfl | hc
    · exact hb
    · exact hz c hc

theorem Memory.writeN_wf {m : Memory} (a : Nat) (bs : List Byte) (h : m.wf = true) : (m.writeN a bs).wf = true := by
  induction bs generalizing m a with
  | nil => exact h
  | cons b r ih => exact ih (a + 1) (Memory.write_wf a b h)

theorem Memory.filter_wf {m : Memory} (p : Host.Cell → Bool) (h : m.wf = true) : Memory.wf (m.filter p) = true := by
  obtain ⟨hr, hz⟩ := Memory.wf_iff.1 h
  exact Memory.wf_iff.2 ⟨rising_filter p hr, fun c hc => hz c (List.mem_filter.1 hc).1⟩

theorem Memory.clear_wf {m : Memory} (a n : Nat) (h : m.wf = true) : (m.clear a n).wf = true := Memory.filter_wf _ h

theorem runCells_keys (a : Nat) (bs : List Byte) : ∀ c ∈ runCells a bs, a ≤ c.1 ∧ c.1 < a + bs.length ∧ c.2 ≠ 0 := by
  induction bs generalizing a with
  | nil => intro c hc; cases hc
  | cons b r ih =>
    intro c hc
    have tail (hc : c ∈ runCells (a + 1) r) : a ≤ c.1 ∧ c.1 < a + (b :: r).length ∧ c.2 ≠ 0 := by
      have := ih (a + 1) c hc
      simp only [List.length_cons]
      exact ⟨by omega, by omega, this.2.2⟩
    simp only [runCells] at hc
    split at hc
    · exact tail hc
    · rename_i hb
      rcases List.mem_cons.1 hc with rfl | hc
      · exact ⟨Nat.le_refl _, by simp, hb⟩
      · exact tail hc

theorem rising_runCells (a : Nat) (bs : List Byte) : rising (runCells a bs) = true := by
  induction bs generalizing a with
  | nil => rfl
  | cons b r ih =>
    simp only [runCells]
    split
    · exact ih (a + 1)
    · exact rising_cons.2 ⟨fun x hx => (runCells_keys (a + 1) r x hx).1, ih (a + 1)⟩

theorem Memory.writeRun_wf {m : Memory} (a : Nat) (bs : List Byte) (h : m.wf = true) : (m.writeRun a bs).wf = true := by
  obtain ⟨hr, hz⟩ := Memory.wf_iff.1 h
  have low : ∀ x ∈ m.filter (fun c => c.1 < a), x.1 < a := fun x hx => by simpa using (List.mem_filter.1 hx).2
  have high : ∀ x ∈ m.filter (fun c => a + bs.length ≤ c.1), a + bs.length ≤ x.1 := fun x hx => by
    simpa using (List.mem_filter.1 hx).2
  refine Memory.wf_iff.2 ⟨rising_append (rising_filter _ hr) (rising_append (rising_runCells a bs) (rising_filter _ hr) ?_) ?_, ?_⟩
  · intro x hx y hy
    exact Nat.lt_of_lt_of_le (runCells_keys a bs x hx).2.1 (high y hy)
  · intro x hx y hy
    rcases List.mem_append.1 hy with hy | hy
    · exact Nat.lt_of_lt_of_le (low x hx) (runCells_keys a bs y hy).1
    · exact Nat.lt_of_lt_of_le (low x hx) (Nat.le_trans (Nat.le_add_right ..) (high y hy))
  · intro c hc
    rcases List.mem_append.1 hc with hc | hc
    · exact hz c (List.mem_filter.1 hc).1
    · rcases List.mem_append.1 hc with hc | hc
      · exact (runCells_keys a bs c hc).2.2
      · exact hz c (List.mem_filter.1 hc).1

/-! ### Reads after writes -/

theorem Memory.read_write_same {m : Memory} (a : Nat) (b : Byte) (h : m.wf = true) : (m.write a b).read a = b := by
  unfold Memory.read Memory.write
  split
  · rename_i hb
    rw [getKey_delKey_same a (Memory.wf_iff.1 h).1, hb]
    rfl
  · rw [getKey_putKey_same]
    rfl

theorem Memory.read_write_other (m : Memory) {a k : Nat} (b : Byte) (h : k ≠ a) : (m.write a b).read k = m.read k := by
  unfold Memory.read Memory.write
  split
  · rw [getKey_delKey_other m h]
  · rw [getKey_putKey_other m b h]

theorem Memory.read_writeN_other (m : Memory) (a k : Nat) (bs : List Byte) (h : k < a ∨ a + bs.length ≤ k) :
    (m.writeN a bs).read k = m.read k := by
  induction bs generalizing m a with
  | nil => rfl
  | cons b r ih =>
    simp only [List.length_cons] at h
    rw [Memory.writeN, ih _ _ (by omega), Memory.read_write_other m b (by omega)]

theorem Memory.read_writeN_same {m : Memory} (a i : Nat) (bs : List Byte) (h : m.wf = true) (hi : i < bs.length) :
    (m.writeN a bs).read (a + i) = bs[i] := by
  induction bs generalizing m a i with
  | nil => cases hi
  | cons b r ih =>
    cases i with
    | zero =>
      rw [Memory.writeN, Memory.read_writeN_other _ _ _ _ (by omega)]
      exact Memory.read_write_same a b h
    | succ j =>
      have := ih (a + 1) j (Memory.write_wf a b h) (by simpa using hi)
      rw [Memory.writeN, show a + (j + 1) = a + 1 + j by omega, this]
      rfl

end Sys2Proof.Machine
end

