-- ==== Sys2Proof/Laws/State.lean ====
section
/-! SUPPORT. What each update of a strand, a core and the device leaves unchanged: one lemma per field and update. -/
namespace Sys2Proof.Machine

/-! ### Updates of a strand -/

@[simp] theorem Strand.getX_zero (t : Strand) : t.getX 0 = 0 := rfl
@[simp] theorem Strand.setX_live (t : Strand) (r : Nat) (v : Word) :
    (t.setX r v).live = t.live := by unfold Strand.setX; split <;> rfl
@[simp] theorem Strand.setX_pc (t : Strand) (r : Nat) (v : Word) :
    (t.setX r v).pc = t.pc := by unfold Strand.setX; split <;> rfl
@[simp] theorem Strand.setX_sup (t : Strand) (r : Nat) (v : Word) :
    (t.setX r v).sup = t.sup := by unfold Strand.setX; split <;> rfl
@[simp] theorem Strand.setX_v (t : Strand) (r : Nat) (v : Word) : (t.setX r v).v = t.v := by unfold Strand.setX; split <;> rfl
@[simp] theorem Strand.setX_p (t : Strand) (r : Nat) (v : Word) : (t.setX r v).p = t.p := by unfold Strand.setX; split <;> rfl
@[simp] theorem Strand.setX_fctl (t : Strand) (r : Nat) (v : Word) :
    (t.setX r v).fctl = t.fctl := by unfold Strand.setX; split <;> rfl
@[simp] theorem Strand.setX_flags (t : Strand) (r : Nat) (v : Word) :
    (t.setX r v).flags = t.flags := by unfold Strand.setX; split <;> rfl
@[simp] theorem Strand.setX_rkey (t : Strand) (r : Nat) (v : Word) :
    (t.setX r v).rkey = t.rkey := by unfold Strand.setX; split <;> rfl
@[simp] theorem Strand.setX_sid (t : Strand) (r : Nat) (v : Word) :
    (t.setX r v).sid = t.sid := by unfold Strand.setX; split <;> rfl
@[simp] theorem Strand.setX_draw (t : Strand) (r : Nat) (v : Word) :
    (t.setX r v).draw = t.draw := by unfold Strand.setX; split <;> rfl
@[simp] theorem Strand.setX_susp (t : Strand) (r : Nat) (v : Word) :
    (t.setX r v).susp = t.susp := by unfold Strand.setX; split <;> rfl
@[simp] theorem Strand.setX_refusal (t : Strand) (r : Nat) (v : Word) :
    (t.setX r v).refusal = t.refusal := by unfold Strand.setX; split <;> rfl
@[simp] theorem Strand.setX_ordHeld (t : Strand) (r : Nat) (v : Word) :
    (t.setX r v).ordHeld = t.ordHeld := by unfold Strand.setX; split <;> rfl
@[simp] theorem Strand.setX_inEntry (t : Strand) (r : Nat) (v : Word) :
    (t.setX r v).inEntry = t.inEntry := by unfold Strand.setX; split <;> rfl
@[simp] theorem Strand.setX_holds (t : Strand) (r : Nat) (v : Word) :
    (t.setX r v).holds = t.holds := by unfold Strand.setX; split <;> rfl
@[simp] theorem Strand.setX_await (t : Strand) (r : Nat) (v : Word) :
    (t.setX r v).await = t.await := by unfold Strand.setX; split <;> rfl
@[simp] theorem Strand.setX_pend (t : Strand) (r : Nat) (v : Word) :
    (t.setX r v).pend = t.pend := by unfold Strand.setX; split <;> rfl
@[simp] theorem Strand.setX_arm (t : Strand) (r : Nat) (v : Word) :
    (t.setX r v).arm = t.arm := by unfold Strand.setX; split <;> rfl
@[simp] theorem Strand.setX_rep (t : Strand) (r : Nat) (v : Word) :
    (t.setX r v).rep = t.rep := by unfold Strand.setX; split <;> rfl
@[simp] theorem Strand.setX_rest (t : Strand) (r : Nat) (v : Word) :
    (t.setX r v).rest = t.rest := by unfold Strand.setX; split <;> rfl
@[simp] theorem Strand.setX_late (t : Strand) (r : Nat) (v : Word) :
    (t.setX r v).late = t.late := by unfold Strand.setX; split <;> rfl
@[simp] theorem Strand.setX_mid (t : Strand) (r : Nat) (v : Word) :
    (t.setX r v).mid = t.mid := by unfold Strand.setX; split <;> rfl
@[simp] theorem Strand.setX_fetched (t : Strand) (r : Nat) (v : Word) :
    (t.setX r v).fetched = t.fetched := by unfold Strand.setX; split <;> rfl
@[simp] theorem Strand.setX_divFree (t : Strand) (r : Nat) (v : Word) :
    (t.setX r v).divFree = t.divFree := by unfold Strand.setX; split <;> rfl
@[simp] theorem Strand.setX_notReady (t : Strand) (r : Nat) (v : Word) :
    (t.setX r v).notReady = t.notReady := by unfold Strand.setX; split <;> rfl
@[simp] theorem Strand.setX_yielded (t : Strand) (r : Nat) (v : Word) :
    (t.setX r v).yielded = t.yielded := by unfold Strand.setX; split <;> rfl
@[simp] theorem Strand.setX_jumped (t : Strand) (r : Nat) (v : Word) :
    (t.setX r v).jumped = t.jumped := by unfold Strand.setX; split <;> rfl
@[simp] theorem Strand.setV_live (t : Strand) (r : Nat) (v : VWord) : (t.setV r v).live = t.live := rfl
@[simp] theorem Strand.setV_pc (t : Strand) (r : Nat) (v : VWord) : (t.setV r v).pc = t.pc := rfl
@[simp] theorem Strand.setV_sup (t : Strand) (r : Nat) (v : VWord) : (t.setV r v).sup = t.sup := rfl
@[simp] theorem Strand.setV_x (t : Strand) (r : Nat) (v : VWord) : (t.setV r v).x = t.x := rfl
@[simp] theorem Strand.setV_p (t : Strand) (r : Nat) (v : VWord) : (t.setV r v).p = t.p := rfl
@[simp] theorem Strand.setV_fctl (t : Strand) (r : Nat) (v : VWord) : (t.setV r v).fctl = t.fctl := rfl
@[simp] theorem Strand.setV_flags (t : Strand) (r : Nat) (v : VWord) : (t.setV r v).flags = t.flags := rfl
@[simp] theorem Strand.setV_rkey (t : Strand) (r : Nat) (v : VWord) : (t.setV r v).rkey = t.rkey := rfl
@[simp] theorem Strand.setV_sid (t : Strand) (r : Nat) (v : VWord) : (t.setV r v).sid = t.sid := rfl
@[simp] theorem Strand.setV_draw (t : Strand) (r : Nat) (v : VWord) : (t.setV r v).draw = t.draw := rfl
@[simp] theorem Strand.setV_susp (t : Strand) (r : Nat) (v : VWord) : (t.setV r v).susp = t.susp := rfl
@[simp] theorem Strand.setV_refusal (t : Strand) (r : Nat) (v : VWord) : (t.setV r v).refusal = t.refusal := rfl
@[simp] theorem Strand.setV_ordHeld (t : Strand) (r : Nat) (v : VWord) : (t.setV r v).ordHeld = t.ordHeld := rfl
@[simp] theorem Strand.setV_inEntry (t : Strand) (r : Nat) (v : VWord) : (t.setV r v).inEntry = t.inEntry := rfl
@[simp] theorem Strand.setV_holds (t : Strand) (r : Nat) (v : VWord) : (t.setV r v).holds = t.holds := rfl
@[simp] theorem Strand.setV_await (t : Strand) (r : Nat) (v : VWord) : (t.setV r v).await = t.await := rfl
@[simp] theorem Strand.setV_pend (t : Strand) (r : Nat) (v : VWord) : (t.setV r v).pend = t.pend := rfl
@[simp] theorem Strand.setV_arm (t : Strand) (r : Nat) (v : VWord) : (t.setV r v).arm = t.arm := rfl
@[simp] theorem Strand.setV_rep (t : Strand) (r : Nat) (v : VWord) : (t.setV r v).rep = t.rep := rfl
@[simp] theorem Strand.setV_rest (t : Strand) (r : Nat) (v : VWord) : (t.setV r v).rest = t.rest := rfl
@[simp] theorem Strand.setV_late (t : Strand) (r : Nat) (v : VWord) : (t.setV r v).late = t.late := rfl
@[simp] theorem Strand.setV_mid (t : Strand) (r : Nat) (v : VWord) : (t.setV r v).mid = t.mid := rfl
@[simp] theorem Strand.setV_fetched (t : Strand) (r : Nat) (v : VWord) : (t.setV r v).fetched = t.fetched := rfl
@[simp] theorem Strand.setV_divFree (t : Strand) (r : Nat) (v : VWord) : (t.setV r v).divFree = t.divFree := rfl
@[simp] theorem Strand.setV_notReady (t : Strand) (r : Nat) (v : VWord) : (t.setV r v).notReady = t.notReady := rfl
@[simp] theorem Strand.setV_yielded (t : Strand) (r : Nat) (v : VWord) : (t.setV r v).yielded = t.yielded := rfl
@[simp] theorem Strand.setV_jumped (t : Strand) (r : Nat) (v : VWord) : (t.setV r v).jumped = t.jumped := rfl
@[simp] theorem Strand.setP_live (t : Strand) (r : Nat) (v : PWord) : (t.setP r v).live = t.live := rfl
@[simp] theorem Strand.setP_pc (t : Strand) (r : Nat) (v : PWord) : (t.setP r v).pc = t.pc := rfl
@[simp] theorem Strand.setP_sup (t : Strand) (r : Nat) (v : PWord) : (t.setP r v).sup = t.sup := rfl
@[simp] theorem Strand.setP_x (t : Strand) (r : Nat) (v : PWord) : (t.setP r v).x = t.x := rfl
@[simp] theorem Strand.setP_v (t : Strand) (r : Nat) (v : PWord) : (t.setP r v).v = t.v := rfl
@[simp] theorem Strand.setP_fctl (t : Strand) (r : Nat) (v : PWord) : (t.setP r v).fctl = t.fctl := rfl
@[simp] theorem Strand.setP_flags (t : Strand) (r : Nat) (v : PWord) : (t.setP r v).flags = t.flags := rfl
@[simp] theorem Strand.setP_rkey (t : Strand) (r : Nat) (v : PWord) : (t.setP r v).rkey = t.rkey := rfl
@[simp] theorem Strand.setP_sid (t : Strand) (r : Nat) (v : PWord) : (t.setP r v).sid = t.sid := rfl
@[simp] theorem Strand.setP_draw (t : Strand) (r : Nat) (v : PWord) : (t.setP r v).draw = t.draw := rfl
@[simp] theorem Strand.setP_susp (t : Strand) (r : Nat) (v : PWord) : (t.setP r v).susp = t.susp := rfl
@[simp] theorem Strand.setP_refusal (t : Strand) (r : Nat) (v : PWord) : (t.setP r v).refusal = t.refusal := rfl
@[simp] theorem Strand.setP_ordHeld (t : Strand) (r : Nat) (v : PWord) : (t.setP r v).ordHeld = t.ordHeld := rfl
@[simp] theorem Strand.setP_inEntry (t : Strand) (r : Nat) (v : PWord) : (t.setP r v).inEntry = t.inEntry := rfl
@[simp] theorem Strand.setP_holds (t : Strand) (r : Nat) (v : PWord) : (t.setP r v).holds = t.holds := rfl
@[simp] theorem Strand.setP_await (t : Strand) (r : Nat) (v : PWord) : (t.setP r v).await = t.await := rfl
@[simp] theorem Strand.setP_pend (t : Strand) (r : Nat) (v : PWord) : (t.setP r v).pend = t.pend := rfl
@[simp] theorem Strand.setP_arm (t : Strand) (r : Nat) (v : PWord) : (t.setP r v).arm = t.arm := rfl
@[simp] theorem Strand.setP_rep (t : Strand) (r : Nat) (v : PWord) : (t.setP r v).rep = t.rep := rfl
@[simp] theorem Strand.setP_rest (t : Strand) (r : Nat) (v : PWord) : (t.setP r v).rest = t.rest := rfl
@[simp] theorem Strand.setP_late (t : Strand) (r : Nat) (v : PWord) : (t.setP r v).late = t.late := rfl
@[simp] theorem Strand.setP_mid (t : Strand) (r : Nat) (v : PWord) : (t.setP r v).mid = t.mid := rfl
@[simp] theorem Strand.setP_fetched (t : Strand) (r : Nat) (v : PWord) : (t.setP r v).fetched = t.fetched := rfl
@[simp] theorem Strand.setP_divFree (t : Strand) (r : Nat) (v : PWord) : (t.setP r v).divFree = t.divFree := rfl
@[simp] theorem Strand.setP_notReady (t : Strand) (r : Nat) (v : PWord) : (t.setP r v).notReady = t.notReady := rfl
@[simp] theorem Strand.setP_yielded (t : Strand) (r : Nat) (v : PWord) : (t.setP r v).yielded = t.yielded := rfl
@[simp] theorem Strand.setP_jumped (t : Strand) (r : Nat) (v : PWord) : (t.setP r v).jumped = t.jumped := rfl
@[simp] theorem Strand.setReg_live (t : Strand) (r : Reg) (v : BitVec 128) :
    (t.setReg r v).live = t.live := by cases r <;> simp [Strand.setReg]
@[simp] theorem Strand.setReg_pc (t : Strand) (r : Reg) (v : BitVec 128) :
    (t.setReg r v).pc = t.pc := by cases r <;> simp [Strand.setReg]
@[simp] theorem Strand.setReg_sup (t : Strand) (r : Reg) (v : BitVec 128) :
    (t.setReg r v).sup = t.sup := by cases r <;> simp [Strand.setReg]
@[simp] theorem Strand.setReg_fctl (t : Strand) (r : Reg) (v : BitVec 128) :
    (t.setReg r v).fctl = t.fctl := by cases r <;> simp [Strand.setReg]
@[simp] theorem Strand.setReg_flags (t : Strand) (r : Reg) (v : BitVec 128) :
    (t.setReg r v).flags = t.flags := by cases r <;> simp [Strand.setReg]
@[simp] theorem Strand.setReg_rkey (t : Strand) (r : Reg) (v : BitVec 128) :
    (t.setReg r v).rkey = t.rkey := by cases r <;> simp [Strand.setReg]
@[simp] theorem Strand.setReg_sid (t : Strand) (r : Reg) (v : BitVec 128) :
    (t.setReg r v).sid = t.sid := by cases r <;> simp [Strand.setReg]
@[simp] theorem Strand.setReg_draw (t : Strand) (r : Reg) (v : BitVec 128) :
    (t.setReg r v).draw = t.draw := by cases r <;> simp [Strand.setReg]
@[simp] theorem Strand.setReg_susp (t : Strand) (r : Reg) (v : BitVec 128) :
    (t.setReg r v).susp = t.susp := by cases r <;> simp [Strand.setReg]
@[simp] theorem Strand.setReg_refusal (t : Strand) (r : Reg) (v : BitVec 128) :
    (t.setReg r v).refusal = t.refusal := by cases r <;> simp [Strand.setReg]
@[simp] theorem Strand.setReg_ordHeld (t : Strand) (r : Reg) (v : BitVec 128) :
    (t.setReg r v).ordHeld = t.ordHeld := by cases r <;> simp [Strand.setReg]
@[simp] theorem Strand.setReg_inEntry (t : Strand) (r : Reg) (v : BitVec 128) :
    (t.setReg r v).inEntry = t.inEntry := by cases r <;> simp [Strand.setReg]
@[simp] theorem Strand.setReg_holds (t : Strand) (r : Reg) (v : BitVec 128) :
    (t.setReg r v).holds = t.holds := by cases r <;> simp [Strand.setReg]
@[simp] theorem Strand.setReg_await (t : Strand) (r : Reg) (v : BitVec 128) :
    (t.setReg r v).await = t.await := by cases r <;> simp [Strand.setReg]
@[simp] theorem Strand.setReg_pend (t : Strand) (r : Reg) (v : BitVec 128) :
    (t.setReg r v).pend = t.pend := by cases r <;> simp [Strand.setReg]
@[simp] theorem Strand.setReg_arm (t : Strand) (r : Reg) (v : BitVec 128) :
    (t.setReg r v).arm = t.arm := by cases r <;> simp [Strand.setReg]
@[simp] theorem Strand.setReg_rep (t : Strand) (r : Reg) (v : BitVec 128) :
    (t.setReg r v).rep = t.rep := by cases r <;> simp [Strand.setReg]
@[simp] theorem Strand.setReg_rest (t : Strand) (r : Reg) (v : BitVec 128) :
    (t.setReg r v).rest = t.rest := by cases r <;> simp [Strand.setReg]
@[simp] theorem Strand.setReg_late (t : Strand) (r : Reg) (v : BitVec 128) :
    (t.setReg r v).late = t.late := by cases r <;> simp [Strand.setReg]
@[simp] theorem Strand.setReg_mid (t : Strand) (r : Reg) (v : BitVec 128) :
    (t.setReg r v).mid = t.mid := by cases r <;> simp [Strand.setReg]
@[simp] theorem Strand.setReg_fetched (t : Strand) (r : Reg) (v : BitVec 128) :
    (t.setReg r v).fetched = t.fetched := by cases r <;> simp [Strand.setReg]
@[simp] theorem Strand.setReg_divFree (t : Strand) (r : Reg) (v : BitVec 128) :
    (t.setReg r v).divFree = t.divFree := by cases r <;> simp [Strand.setReg]
@[simp] theorem Strand.setReg_notReady (t : Strand) (r : Reg) (v : BitVec 128) :
    (t.setReg r v).notReady = t.notReady := by cases r <;> simp [Strand.setReg]
@[simp] theorem Strand.setReg_yielded (t : Strand) (r : Reg) (v : BitVec 128) :
    (t.setReg r v).yielded = t.yielded := by cases r <;> simp [Strand.setReg]
@[simp] theorem Strand.setReg_jumped (t : Strand) (r : Reg) (v : BitVec 128) :
    (t.setReg r v).jumped = t.jumped := by cases r <;> simp [Strand.setReg]

/-! ### Updates of a core -/

@[simp] theorem Core.setStrand_tiles (c : Core) (i : Nat) (t : Strand) : (c.setStrand i t).tiles = c.tiles := rfl
@[simp] theorem Core.setStrand_tickets (c : Core) (i : Nat) (t : Strand) : (c.setStrand i t).tickets = c.tickets := rfl
@[simp] theorem Core.setStrand_tslots (c : Core) (i : Nat) (t : Strand) : (c.setStrand i t).tslots = c.tslots := rfl
@[simp] theorem Core.setStrand_regs (c : Core) (i : Nat) (t : Strand) : (c.setStrand i t).regs = c.regs := rfl
@[simp] theorem Core.setStrand_inbox (c : Core) (i : Nat) (t : Strand) : (c.setStrand i t).inbox = c.inbox := rfl
@[simp] theorem Core.setStrand_heldIn (c : Core) (i : Nat) (t : Strand) : (c.setStrand i t).heldIn = c.heldIn := rfl
@[simp] theorem Core.setStrand_queues (c : Core) (i : Nat) (t : Strand) : (c.setStrand i t).queues = c.queues := rfl
@[simp] theorem Core.setStrand_near (c : Core) (i : Nat) (t : Strand) : (c.setStrand i t).near = c.near := rfl
@[simp] theorem Core.setStrand_microTlb (c : Core) (i : Nat) (t : Strand) : (c.setStrand i t).microTlb = c.microTlb := rfl
@[simp] theorem Core.setStrand_lastP (c : Core) (i : Nat) (t : Strand) : (c.setStrand i t).lastP = c.lastP := rfl
@[simp] theorem Core.setStrand_handlerLast (c : Core) (i : Nat) (t : Strand) :
    (c.setStrand i t).handlerLast = c.handlerLast := rfl
@[simp] theorem Core.setStrand_runList (c : Core) (i : Nat) (t : Strand) : (c.setStrand i t).runList = c.runList := rfl
@[simp] theorem Core.setStrand_run (c : Core) (i : Nat) (t : Strand) : (c.setStrand i t).run = c.run := rfl
@[simp] theorem Core.setStrand_hist (c : Core) (i : Nat) (t : Strand) : (c.setStrand i t).hist = c.hist := rfl
@[simp] theorem Core.setStrand_seq (c : Core) (i : Nat) (t : Strand) : (c.setStrand i t).seq = c.seq := rfl
@[simp] theorem Core.setStrand_tstepSeq (c : Core) (i : Nat) (t : Strand) : (c.setStrand i t).tstepSeq = c.tstepSeq := rfl
@[simp] theorem Core.setStrand_phase (c : Core) (i : Nat) (t : Strand) : (c.setStrand i t).phase = c.phase := rfl
@[simp] theorem Core.setStrand_slotMap (c : Core) (i : Nat) (t : Strand) : (c.setStrand i t).slotMap = c.slotMap := rfl
@[simp] theorem Core.setStrand_wrr (c : Core) (i : Nat) (t : Strand) : (c.setStrand i t).wrr = c.wrr := rfl
@[simp] theorem Core.setStrand_refused (c : Core) (i : Nat) (t : Strand) : (c.setStrand i t).refused = c.refused := rfl
@[simp] theorem Core.setStrand_mrotLost (c : Core) (i : Nat) (t : Strand) : (c.setStrand i t).mrotLost = c.mrotLost := rfl
@[simp] theorem Core.setTile_strands (c : Core) (i : Nat) (t : Tile) : (c.setTile i t).strands = c.strands := rfl
@[simp] theorem Core.setTile_tickets (c : Core) (i : Nat) (t : Tile) : (c.setTile i t).tickets = c.tickets := rfl
@[simp] theorem Core.setTile_tslots (c : Core) (i : Nat) (t : Tile) : (c.setTile i t).tslots = c.tslots := rfl
@[simp] theorem Core.setTile_regs (c : Core) (i : Nat) (t : Tile) : (c.setTile i t).regs = c.regs := rfl
@[simp] theorem Core.setTile_inbox (c : Core) (i : Nat) (t : Tile) : (c.setTile i t).inbox = c.inbox := rfl
@[simp] theorem Core.setTile_heldIn (c : Core) (i : Nat) (t : Tile) : (c.setTile i t).heldIn = c.heldIn := rfl
@[simp] theorem Core.setTile_queues (c : Core) (i : Nat) (t : Tile) : (c.setTile i t).queues = c.queues := rfl
@[simp] theorem Core.setTile_near (c : Core) (i : Nat) (t : Tile) : (c.setTile i t).near = c.near := rfl
@[simp] theorem Core.setTile_microTlb (c : Core) (i : Nat) (t : Tile) : (c.setTile i t).microTlb = c.microTlb := rfl
@[simp] theorem Core.setTile_lastP (c : Core) (i : Nat) (t : Tile) : (c.setTile i t).lastP = c.lastP := rfl
@[simp] theorem Core.setTile_handlerLast (c : Core) (i : Nat) (t : Tile) : (c.setTile i t).handlerLast = c.handlerLast := rfl
@[simp] theorem Core.setTile_runList (c : Core) (i : Nat) (t : Tile) : (c.setTile i t).runList = c.runList := rfl
@[simp] theorem Core.setTile_run (c : Core) (i : Nat) (t : Tile) : (c.setTile i t).run = c.run := rfl
@[simp] theorem Core.setTile_hist (c : Core) (i : Nat) (t : Tile) : (c.setTile i t).hist = c.hist := rfl
@[simp] theorem Core.setTile_seq (c : Core) (i : Nat) (t : Tile) : (c.setTile i t).seq = c.seq := rfl
@[simp] theorem Core.setTile_tstepSeq (c : Core) (i : Nat) (t : Tile) : (c.setTile i t).tstepSeq = c.tstepSeq := rfl
@[simp] theorem Core.setTile_phase (c : Core) (i : Nat) (t : Tile) : (c.setTile i t).phase = c.phase := rfl
@[simp] theorem Core.setTile_slotMap (c : Core) (i : Nat) (t : Tile) : (c.setTile i t).slotMap = c.slotMap := rfl
@[simp] theorem Core.setTile_wrr (c : Core) (i : Nat) (t : Tile) : (c.setTile i t).wrr = c.wrr := rfl
@[simp] theorem Core.setTile_refused (c : Core) (i : Nat) (t : Tile) : (c.setTile i t).refused = c.refused := rfl
@[simp] theorem Core.setTile_mrotLost (c : Core) (i : Nat) (t : Tile) : (c.setTile i t).mrotLost = c.mrotLost := rfl
@[simp] theorem Core.setTicket_strands (c : Core) (i : Nat) (t : Ticket) : (c.setTicket i t).strands = c.strands := rfl
@[simp] theorem Core.setTicket_tiles (c : Core) (i : Nat) (t : Ticket) : (c.setTicket i t).tiles = c.tiles := rfl
@[simp] theorem Core.setTicket_tslots (c : Core) (i : Nat) (t : Ticket) : (c.setTicket i t).tslots = c.tslots := rfl
@[simp] theorem Core.setTicket_regs (c : Core) (i : Nat) (t : Ticket) : (c.setTicket i t).regs = c.regs := rfl
@[simp] theorem Core.setTicket_inbox (c : Core) (i : Nat) (t : Ticket) : (c.setTicket i t).inbox = c.inbox := rfl
@[simp] theorem Core.setTicket_heldIn (c : Core) (i : Nat) (t : Ticket) : (c.setTicket i t).heldIn = c.heldIn := rfl
@[simp] theorem Core.setTicket_queues (c : Core) (i : Nat) (t : Ticket) : (c.setTicket i t).queues = c.queues := rfl
@[simp] theorem Core.setTicket_near (c : Core) (i : Nat) (t : Ticket) : (c.setTicket i t).near = c.near := rfl
@[simp] theorem Core.setTicket_microTlb (c : Core) (i : Nat) (t : Ticket) : (c.setTicket i t).microTlb = c.microTlb := rfl
@[simp] theorem Core.setTicket_lastP (c : Core) (i : Nat) (t : Ticket) : (c.setTicket i t).lastP = c.lastP := rfl
@[simp] theorem Core.setTicket_handlerLast (c : Core) (i : Nat) (t : Ticket) :
    (c.setTicket i t).handlerLast = c.handlerLast := rfl
@[simp] theorem Core.setTicket_runList (c : Core) (i : Nat) (t : Ticket) : (c.setTicket i t).runList = c.runList := rfl
@[simp] theorem Core.setTicket_run (c : Core) (i : Nat) (t : Ticket) : (c.setTicket i t).run = c.run := rfl
@[simp] theorem Core.setTicket_hist (c : Core) (i : Nat) (t : Ticket) : (c.setTicket i t).hist = c.hist := rfl
@[simp] theorem Core.setTicket_seq (c : Core) (i : Nat) (t : Ticket) : (c.setTicket i t).seq = c.seq := rfl
@[simp] theorem Core.setTicket_tstepSeq (c : Core) (i : Nat) (t : Ticket) : (c.setTicket i t).tstepSeq = c.tstepSeq := rfl
@[simp] theorem Core.setTicket_phase (c : Core) (i : Nat) (t : Ticket) : (c.setTicket i t).phase = c.phase := rfl
@[simp] theorem Core.setTicket_slotMap (c : Core) (i : Nat) (t : Ticket) : (c.setTicket i t).slotMap = c.slotMap := rfl
@[simp] theorem Core.setTicket_wrr (c : Core) (i : Nat) (t : Ticket) : (c.setTicket i t).wrr = c.wrr := rfl
@[simp] theorem Core.setTicket_refused (c : Core) (i : Nat) (t : Ticket) : (c.setTicket i t).refused = c.refused := rfl
@[simp] theorem Core.setTicket_mrotLost (c : Core) (i : Nat) (t : Ticket) : (c.setTicket i t).mrotLost = c.mrotLost := rfl

/-! ### Updates of the device -/

@[simp] theorem State.setCore_powered (s : State) (n : Nat) (c : Core) : (s.setCore n c).powered = s.powered := rfl
@[simp] theorem State.setCore_cycle (s : State) (n : Nat) (c : Core) : (s.setCore n c).cycle = s.cycle := rfl
@[simp] theorem State.setCore_parts (s : State) (n : Nat) (c : Core) : (s.setCore n c).parts = s.parts := rfl
@[simp] theorem State.setCore_mem (s : State) (n : Nat) (c : Core) : (s.setCore n c).mem = s.mem := rfl
@[simp] theorem State.setCore_l2 (s : State) (n : Nat) (c : Core) : (s.setCore n c).l2 = s.l2 := rfl
@[simp] theorem State.setCore_owner (s : State) (n : Nat) (c : Core) : (s.setCore n c).owner = s.owner := rfl
@[simp] theorem State.setCore_poison (s : State) (n : Nat) (c : Core) : (s.setCore n c).poison = s.poison := rfl
@[simp] theorem State.setCore_clusterTlb (s : State) (n : Nat) (c : Core) : (s.setCore n c).clusterTlb = s.clusterTlb := rfl
@[simp] theorem State.setCore_dpit (s : State) (n : Nat) (c : Core) : (s.setCore n c).dpit = s.dpit := rfl
@[simp] theorem State.setCore_moves (s : State) (n : Nat) (c : Core) : (s.setCore n c).moves = s.moves := rfl
@[simp] theorem State.setCore_hot (s : State) (n : Nat) (c : Core) : (s.setCore n c).hot = s.hot := rfl
@[simp] theorem State.setCore_reserve (s : State) (n : Nat) (c : Core) : (s.setCore n c).reserve = s.reserve := rfl
@[simp] theorem State.setCore_net (s : State) (n : Nat) (c : Core) : (s.setCore n c).net = s.net := rfl
@[simp] theorem State.setCore_nextRid (s : State) (n : Nat) (c : Core) : (s.setCore n c).nextRid = s.nextRid := rfl
@[simp] theorem State.setCore_doms (s : State) (n : Nat) (c : Core) : (s.setCore n c).doms = s.doms := rfl
@[simp] theorem State.setCore_buffered (s : State) (n : Nat) (c : Core) : (s.setCore n c).buffered = s.buffered := rfl
@[simp] theorem State.setCore_mcmds (s : State) (n : Nat) (c : Core) : (s.setCore n c).mcmds = s.mcmds := rfl
@[simp] theorem State.setCore_applied (s : State) (n : Nat) (c : Core) : (s.setCore n c).applied = s.applied := rfl
@[simp] theorem State.setCore_stepped (s : State) (n : Nat) (c : Core) : (s.setCore n c).stepped = s.stepped := rfl
@[simp] theorem State.setCore_dev (s : State) (n : Nat) (c : Core) : (s.setCore n c).dev = s.dev := rfl
@[simp] theorem State.setCore_agenda (s : State) (n : Nat) (c : Core) : (s.setCore n c).agenda = s.agenda := rfl
@[simp] theorem State.setCore_cur (s : State) (n : Nat) (c : Core) : (s.setCore n c).cur = s.cur := rfl
@[simp] theorem State.setCore_issued (s : State) (n : Nat) (c : Core) : (s.setCore n c).issued = s.issued := rfl
@[simp] theorem State.setCore_visited (s : State) (n : Nat) (c : Core) : (s.setCore n c).visited = s.visited := rfl
@[simp] theorem State.setCore_choices (s : State) (n : Nat) (c : Core) : (s.setCore n c).choices = s.choices := rfl
@[simp] theorem State.setCore_chosen (s : State) (n : Nat) (c : Core) : (s.setCore n c).chosen = s.chosen := rfl
@[simp] theorem State.modCore_powered (s : State) (n : Nat) (f : Core → Core) : (s.modCore n f).powered = s.powered := rfl
@[simp] theorem State.modCore_cycle (s : State) (n : Nat) (f : Core → Core) : (s.modCore n f).cycle = s.cycle := rfl
@[simp] theorem State.modCore_parts (s : State) (n : Nat) (f : Core → Core) : (s.modCore n f).parts = s.parts := rfl
@[simp] theorem State.modCore_mem (s : State) (n : Nat) (f : Core → Core) : (s.modCore n f).mem = s.mem := rfl
@[simp] theorem State.modCore_l2 (s : State) (n : Nat) (f : Core → Core) : (s.modCore n f).l2 = s.l2 := rfl
@[simp] theorem State.modCore_owner (s : State) (n : Nat) (f : Core → Core) : (s.modCore n f).owner = s.owner := rfl
@[simp] theorem State.modCore_poison (s : State) (n : Nat) (f : Core → Core) : (s.modCore n f).poison = s.poison := rfl
@[simp] theorem State.modCore_clusterTlb (s : State) (n : Nat) (f : Core → Core) :
    (s.modCore n f).clusterTlb = s.clusterTlb := rfl
@[simp] theorem State.modCore_dpit (s : State) (n : Nat) (f : Core → Core) : (s.modCore n f).dpit = s.dpit := rfl
@[simp] theorem State.modCore_moves (s : State) (n : Nat) (f : Core → Core) : (s.modCore n f).moves = s.moves := rfl
@[simp] theorem State.modCore_hot (s : State) (n : Nat) (f : Core → Core) : (s.modCore n f).hot = s.hot := rfl
@[simp] theorem State.modCore_reserve (s : State) (n : Nat) (f : Core → Core) : (s.modCore n f).reserve = s.reserve := rfl
@[simp] theorem State.modCore_net (s : State) (n : Nat) (f : Core → Core) : (s.modCore n f).net = s.net := rfl
@[simp] theorem State.modCore_nextRid (s : State) (n : Nat) (f : Core → Core) : (s.modCore n f).nextRid = s.nextRid := rfl
@[simp] theorem State.modCore_doms (s : State) (n : Nat) (f : Core → Core) : (s.modCore n f).doms = s.doms := rfl
@[simp] theorem State.modCore_buffered (s : State) (n : Nat) (f : Core → Core) : (s.modCore n f).buffered = s.buffered := rfl
@[simp] theorem State.modCore_mcmds (s : State) (n : Nat) (f : Core → Core) : (s.modCore n f).mcmds = s.mcmds := rfl
@[simp] theorem State.modCore_applied (s : State) (n : Nat) (f : Core → Core) : (s.modCore n f).applied = s.applied := rfl
@[simp] theorem State.modCore_stepped (s : State) (n : Nat) (f : Core → Core) : (s.modCore n f).stepped = s.stepped := rfl
@[simp] theorem State.modCore_dev (s : State) (n : Nat) (f : Core → Core) : (s.modCore n f).dev = s.dev := rfl
@[simp] theorem State.modCore_agenda (s : State) (n : Nat) (f : Core → Core) : (s.modCore n f).agenda = s.agenda := rfl
@[simp] theorem State.modCore_cur (s : State) (n : Nat) (f : Core → Core) : (s.modCore n f).cur = s.cur := rfl
@[simp] theorem State.modCore_issued (s : State) (n : Nat) (f : Core → Core) : (s.modCore n f).issued = s.issued := rfl
@[simp] theorem State.modCore_visited (s : State) (n : Nat) (f : Core → Core) : (s.modCore n f).visited = s.visited := rfl
@[simp] theorem State.modCore_choices (s : State) (n : Nat) (f : Core → Core) : (s.modCore n f).choices = s.choices := rfl
@[simp] theorem State.modCore_chosen (s : State) (n : Nat) (f : Core → Core) : (s.modCore n f).chosen = s.chosen := rfl
@[simp] theorem State.modStrand_powered (s : State) (n i : Nat) (f : Strand → Strand) :
    (s.modStrand n i f).powered = s.powered := rfl
@[simp] theorem State.modStrand_cycle (s : State) (n i : Nat) (f : Strand → Strand) : (s.modStrand n i f).cycle = s.cycle := rfl
@[simp] theorem State.modStrand_parts (s : State) (n i : Nat) (f : Strand → Strand) : (s.modStrand n i f).parts = s.parts := rfl
@[simp] theorem State.modStrand_mem (s : State) (n i : Nat) (f : Strand → Strand) : (s.modStrand n i f).mem = s.mem := rfl
@[simp] theorem State.modStrand_l2 (s : State) (n i : Nat) (f : Strand → Strand) : (s.modStrand n i f).l2 = s.l2 := rfl
@[simp] theorem State.modStrand_owner (s : State) (n i : Nat) (f : Strand → Strand) : (s.modStrand n i f).owner = s.owner := rfl
@[simp] theorem State.modStrand_poison (s : State) (n i : Nat) (f : Strand → Strand) :
    (s.modStrand n i f).poison = s.poison := rfl
@[simp] theorem State.modStrand_clusterTlb (s : State) (n i : Nat) (f : Strand → Strand) :
    (s.modStrand n i f).clusterTlb = s.clusterTlb := rfl
@[simp] theorem State.modStrand_dpit (s : State) (n i : Nat) (f : Strand → Strand) : (s.modStrand n i f).dpit = s.dpit := rfl
@[simp] theorem State.modStrand_moves (s : State) (n i : Nat) (f : Strand → Strand) : (s.modStrand n i f).moves = s.moves := rfl
@[simp] theorem State.modStrand_hot (s : State) (n i : Nat) (f : Strand → Strand) : (s.modStrand n i f).hot = s.hot := rfl
@[simp] theorem State.modStrand_reserve (s : State) (n i : Nat) (f : Strand → Strand) :
    (s.modStrand n i f).reserve = s.reserve := rfl
@[simp] theorem State.modStrand_net (s : State) (n i : Nat) (f : Strand → Strand) : (s.modStrand n i f).net = s.net := rfl
@[simp] theorem State.modStrand_nextRid (s : State) (n i : Nat) (f : Strand → Strand) :
    (s.modStrand n i f).nextRid = s.nextRid := rfl
@[simp] theorem State.modStrand_doms (s : State) (n i : Nat) (f : Strand → Strand) : (s.modStrand n i f).doms = s.doms := rfl
@[simp] theorem State.modStrand_buffered (s : State) (n i : Nat) (f : Strand → Strand) :
    (s.modStrand n i f).buffered = s.buffered := rfl
@[simp] theorem State.modStrand_mcmds (s : State) (n i : Nat) (f : Strand → Strand) : (s.modStrand n i f).mcmds = s.mcmds := rfl
@[simp] theorem State.modStrand_applied (s : State) (n i : Nat) (f : Strand → Strand) :
    (s.modStrand n i f).applied = s.applied := rfl
@[simp] theorem State.modStrand_stepped (s : State) (n i : Nat) (f : Strand → Strand) :
    (s.modStrand n i f).stepped = s.stepped := rfl
@[simp] theorem State.modStrand_dev (s : State) (n i : Nat) (f : Strand → Strand) : (s.modStrand n i f).dev = s.dev := rfl
@[simp] theorem State.modStrand_agenda (s : State) (n i : Nat) (f : Strand → Strand) :
    (s.modStrand n i f).agenda = s.agenda := rfl
@[simp] theorem State.modStrand_cur (s : State) (n i : Nat) (f : Strand → Strand) : (s.modStrand n i f).cur = s.cur := rfl
@[simp] theorem State.modStrand_issued (s : State) (n i : Nat) (f : Strand → Strand) :
    (s.modStrand n i f).issued = s.issued := rfl
@[simp] theorem State.modStrand_visited (s : State) (n i : Nat) (f : Strand → Strand) :
    (s.modStrand n i f).visited = s.visited := rfl
@[simp] theorem State.modStrand_choices (s : State) (n i : Nat) (f : Strand → Strand) :
    (s.modStrand n i f).choices = s.choices := rfl
@[simp] theorem State.modStrand_chosen (s : State) (n i : Nat) (f : Strand → Strand) :
    (s.modStrand n i f).chosen = s.chosen := rfl
@[simp] theorem State.modMe_powered (s : State) (f : Strand → Strand) : (s.modMe f).powered = s.powered := rfl
@[simp] theorem State.modMe_cycle (s : State) (f : Strand → Strand) : (s.modMe f).cycle = s.cycle := rfl
@[simp] theorem State.modMe_parts (s : State) (f : Strand → Strand) : (s.modMe f).parts = s.parts := rfl
@[simp] theorem State.modMe_mem (s : State) (f : Strand → Strand) : (s.modMe f).mem = s.mem := rfl
@[simp] theorem State.modMe_l2 (s : State) (f : Strand → Strand) : (s.modMe f).l2 = s.l2 := rfl
@[simp] theorem State.modMe_owner (s : State) (f : Strand → Strand) : (s.modMe f).owner = s.owner := rfl
@[simp] theorem State.modMe_poison (s : State) (f : Strand → Strand) : (s.modMe f).poison = s.poison := rfl
@[simp] theorem State.modMe_clusterTlb (s : State) (f : Strand → Strand) : (s.modMe f).clusterTlb = s.clusterTlb := rfl
@[simp] theorem State.modMe_dpit (s : State) (f : Strand → Strand) : (s.modMe f).dpit = s.dpit := rfl
@[simp] theorem State.modMe_moves (s : State) (f : Strand → Strand) : (s.modMe f).moves = s.moves := rfl
@[simp] theorem State.modMe_hot (s : State) (f : Strand → Strand) : (s.modMe f).hot = s.hot := rfl
@[simp] theorem State.modMe_reserve (s : State) (f : Strand → Strand) : (s.modMe f).reserve = s.reserve := rfl
@[simp] theorem State.modMe_net (s : State) (f : Strand → Strand) : (s.modMe f).net = s.net := rfl
@[simp] theorem State.modMe_nextRid (s : State) (f : Strand → Strand) : (s.modMe f).nextRid = s.nextRid := rfl
@[simp] theorem State.modMe_doms (s : State) (f : Strand → Strand) : (s.modMe f).doms = s.doms := rfl
@[simp] theorem State.modMe_buffered (s : State) (f : Strand → Strand) : (s.modMe f).buffered = s.buffered := rfl
@[simp] theorem State.modMe_mcmds (s : State) (f : Strand → Strand) : (s.modMe f).mcmds = s.mcmds := rfl
@[simp] theorem State.modMe_applied (s : State) (f : Strand → Strand) : (s.modMe f).applied = s.applied := rfl
@[simp] theorem State.modMe_stepped (s : State) (f : Strand → Strand) : (s.modMe f).stepped = s.stepped := rfl
@[simp] theorem State.modMe_dev (s : State) (f : Strand → Strand) : (s.modMe f).dev = s.dev := rfl
@[simp] theorem State.modMe_agenda (s : State) (f : Strand → Strand) : (s.modMe f).agenda = s.agenda := rfl
@[simp] theorem State.modMe_cur (s : State) (f : Strand → Strand) : (s.modMe f).cur = s.cur := rfl
@[simp] theorem State.modMe_issued (s : State) (f : Strand → Strand) : (s.modMe f).issued = s.issued := rfl
@[simp] theorem State.modMe_visited (s : State) (f : Strand → Strand) : (s.modMe f).visited = s.visited := rfl
@[simp] theorem State.modMe_choices (s : State) (f : Strand → Strand) : (s.modMe f).choices = s.choices := rfl
@[simp] theorem State.modMe_chosen (s : State) (f : Strand → Strand) : (s.modMe f).chosen = s.chosen := rfl
@[simp] theorem State.modMyCore_powered (s : State) (f : Core → Core) : (s.modMyCore f).powered = s.powered := rfl
@[simp] theorem State.modMyCore_cycle (s : State) (f : Core → Core) : (s.modMyCore f).cycle = s.cycle := rfl
@[simp] theorem State.modMyCore_parts (s : State) (f : Core → Core) : (s.modMyCore f).parts = s.parts := rfl
@[simp] theorem State.modMyCore_mem (s : State) (f : Core → Core) : (s.modMyCore f).mem = s.mem := rfl
@[simp] theorem State.modMyCore_l2 (s : State) (f : Core → Core) : (s.modMyCore f).l2 = s.l2 := rfl
@[simp] theorem State.modMyCore_owner (s : State) (f : Core → Core) : (s.modMyCore f).owner = s.owner := rfl
@[simp] theorem State.modMyCore_poison (s : State) (f : Core → Core) : (s.modMyCore f).poison = s.poison := rfl
@[simp] theorem State.modMyCore_clusterTlb (s : State) (f : Core → Core) : (s.modMyCore f).clusterTlb = s.clusterTlb := rfl
@[simp] theorem State.modMyCore_dpit (s : State) (f : Core → Core) : (s.modMyCore f).dpit = s.dpit := rfl
@[simp] theorem State.modMyCore_moves (s : State) (f : Core → Core) : (s.modMyCore f).moves = s.moves := rfl
@[simp] theorem State.modMyCore_hot (s : State) (f : Core → Core) : (s.modMyCore f).hot = s.hot := rfl
@[simp] theorem State.modMyCore_reserve (s : State) (f : Core → Core) : (s.modMyCore f).reserve = s.reserve := rfl
@[simp] theorem State.modMyCore_net (s : State) (f : Core → Core) : (s.modMyCore f).net = s.net := rfl
@[simp] theorem State.modMyCore_nextRid (s : State) (f : Core → Core) : (s.modMyCore f).nextRid = s.nextRid := rfl
@[simp] theorem State.modMyCore_doms (s : State) (f : Core → Core) : (s.modMyCore f).doms = s.doms := rfl
@[simp] theorem State.modMyCore_buffered (s : State) (f : Core → Core) : (s.modMyCore f).buffered = s.buffered := rfl
@[simp] theorem State.modMyCore_mcmds (s : State) (f : Core → Core) : (s.modMyCore f).mcmds = s.mcmds := rfl
@[simp] theorem State.modMyCore_applied (s : State) (f : Core → Core) : (s.modMyCore f).applied = s.applied := rfl
@[simp] theorem State.modMyCore_stepped (s : State) (f : Core → Core) : (s.modMyCore f).stepped = s.stepped := rfl
@[simp] theorem State.modMyCore_dev (s : State) (f : Core → Core) : (s.modMyCore f).dev = s.dev := rfl
@[simp] theorem State.modMyCore_agenda (s : State) (f : Core → Core) : (s.modMyCore f).agenda = s.agenda := rfl
@[simp] theorem State.modMyCore_cur (s : State) (f : Core → Core) : (s.modMyCore f).cur = s.cur := rfl
@[simp] theorem State.modMyCore_issued (s : State) (f : Core → Core) : (s.modMyCore f).issued = s.issued := rfl
@[simp] theorem State.modMyCore_visited (s : State) (f : Core → Core) : (s.modMyCore f).visited = s.visited := rfl
@[simp] theorem State.modMyCore_choices (s : State) (f : Core → Core) : (s.modMyCore f).choices = s.choices := rfl
@[simp] theorem State.modMyCore_chosen (s : State) (f : Core → Core) : (s.modMyCore f).chosen = s.chosen := rfl
@[simp] theorem State.note_powered (s : State) (h : Hold) : (s.note h).powered = s.powered := rfl
@[simp] theorem State.note_cycle (s : State) (h : Hold) : (s.note h).cycle = s.cycle := rfl
@[simp] theorem State.note_parts (s : State) (h : Hold) : (s.note h).parts = s.parts := rfl
@[simp] theorem State.note_mem (s : State) (h : Hold) : (s.note h).mem = s.mem := rfl
@[simp] theorem State.note_l2 (s : State) (h : Hold) : (s.note h).l2 = s.l2 := rfl
@[simp] theorem State.note_owner (s : State) (h : Hold) : (s.note h).owner = s.owner := rfl
@[simp] theorem State.note_poison (s : State) (h : Hold) : (s.note h).poison = s.poison := rfl
@[simp] theorem State.note_clusterTlb (s : State) (h : Hold) : (s.note h).clusterTlb = s.clusterTlb := rfl
@[simp] theorem State.note_dpit (s : State) (h : Hold) : (s.note h).dpit = s.dpit := rfl
@[simp] theorem State.note_moves (s : State) (h : Hold) : (s.note h).moves = s.moves := rfl
@[simp] theorem State.note_hot (s : State) (h : Hold) : (s.note h).hot = s.hot := rfl
@[simp] theorem State.note_reserve (s : State) (h : Hold) : (s.note h).reserve = s.reserve := rfl
@[simp] theorem State.note_net (s : State) (h : Hold) : (s.note h).net = s.net := rfl
@[simp] theorem State.note_nextRid (s : State) (h : Hold) : (s.note h).nextRid = s.nextRid := rfl
@[simp] theorem State.note_doms (s : State) (h : Hold) : (s.note h).doms = s.doms := rfl
@[simp] theorem State.note_buffered (s : State) (h : Hold) : (s.note h).buffered = s.buffered := rfl
@[simp] theorem State.note_mcmds (s : State) (h : Hold) : (s.note h).mcmds = s.mcmds := rfl
@[simp] theorem State.note_applied (s : State) (h : Hold) : (s.note h).applied = s.applied := rfl
@[simp] theorem State.note_stepped (s : State) (h : Hold) : (s.note h).stepped = s.stepped := rfl
@[simp] theorem State.note_dev (s : State) (h : Hold) : (s.note h).dev = s.dev := rfl
@[simp] theorem State.note_agenda (s : State) (h : Hold) : (s.note h).agenda = s.agenda := rfl
@[simp] theorem State.note_cur (s : State) (h : Hold) : (s.note h).cur = s.cur := rfl
@[simp] theorem State.note_issued (s : State) (h : Hold) : (s.note h).issued = s.issued := rfl
@[simp] theorem State.note_visited (s : State) (h : Hold) : (s.note h).visited = s.visited := rfl
@[simp] theorem State.note_choices (s : State) (h : Hold) : (s.note h).choices = s.choices := rfl
@[simp] theorem State.note_chosen (s : State) (h : Hold) : (s.note h).chosen = s.chosen := rfl
@[simp] theorem State.setEnding_powered (s : State) (e : Ending) : (s.setEnding e).powered = s.powered := rfl
@[simp] theorem State.setEnding_cycle (s : State) (e : Ending) : (s.setEnding e).cycle = s.cycle := rfl
@[simp] theorem State.setEnding_cores (s : State) (e : Ending) : (s.setEnding e).cores = s.cores := rfl
@[simp] theorem State.setEnding_parts (s : State) (e : Ending) : (s.setEnding e).parts = s.parts := rfl
@[simp] theorem State.setEnding_mem (s : State) (e : Ending) : (s.setEnding e).mem = s.mem := rfl
@[simp] theorem State.setEnding_l2 (s : State) (e : Ending) : (s.setEnding e).l2 = s.l2 := rfl
@[simp] theorem State.setEnding_owner (s : State) (e : Ending) : (s.setEnding e).owner = s.owner := rfl
@[simp] theorem State.setEnding_poison (s : State) (e : Ending) : (s.setEnding e).poison = s.poison := rfl
@[simp] theorem State.setEnding_clusterTlb (s : State) (e : Ending) : (s.setEnding e).clusterTlb = s.clusterTlb := rfl
@[simp] theorem State.setEnding_dpit (s : State) (e : Ending) : (s.setEnding e).dpit = s.dpit := rfl
@[simp] theorem State.setEnding_moves (s : State) (e : Ending) : (s.setEnding e).moves = s.moves := rfl
@[simp] theorem State.setEnding_hot (s : State) (e : Ending) : (s.setEnding e).hot = s.hot := rfl
@[simp] theorem State.setEnding_reserve (s : State) (e : Ending) : (s.setEnding e).reserve = s.reserve := rfl
@[simp] theorem State.setEnding_net (s : State) (e : Ending) : (s.setEnding e).net = s.net := rfl
@[simp] theorem State.setEnding_nextRid (s : State) (e : Ending) : (s.setEnding e).nextRid = s.nextRid := rfl
@[simp] theorem State.setEnding_doms (s : State) (e : Ending) : (s.setEnding e).doms = s.doms := rfl
@[simp] theorem State.setEnding_buffered (s : State) (e : Ending) : (s.setEnding e).buffered = s.buffered := rfl
@[simp] theorem State.setEnding_mcmds (s : State) (e : Ending) : (s.setEnding e).mcmds = s.mcmds := rfl
@[simp] theorem State.setEnding_applied (s : State) (e : Ending) : (s.setEnding e).applied = s.applied := rfl
@[simp] theorem State.setEnding_stepped (s : State) (e : Ending) : (s.setEnding e).stepped = s.stepped := rfl
@[simp] theorem State.setEnding_dev (s : State) (e : Ending) : (s.setEnding e).dev = s.dev := rfl
@[simp] theorem State.setEnding_agenda (s : State) (e : Ending) : (s.setEnding e).agenda = s.agenda := rfl
@[simp] theorem State.setEnding_issued (s : State) (e : Ending) : (s.setEnding e).issued = s.issued := rfl
@[simp] theorem State.setEnding_visited (s : State) (e : Ending) : (s.setEnding e).visited = s.visited := rfl
@[simp] theorem State.setEnding_choices (s : State) (e : Ending) : (s.setEnding e).choices = s.choices := rfl
@[simp] theorem State.setEnding_chosen (s : State) (e : Ending) : (s.setEnding e).chosen = s.chosen := rfl
@[simp] theorem State.jump_powered (s : State) (a : Addr) : (s.jump a).powered = s.powered := rfl
@[simp] theorem State.jump_cycle (s : State) (a : Addr) : (s.jump a).cycle = s.cycle := rfl
@[simp] theorem State.jump_cores (s : State) (a : Addr) : (s.jump a).cores = s.cores := rfl
@[simp] theorem State.jump_parts (s : State) (a : Addr) : (s.jump a).parts = s.parts := rfl
@[simp] theorem State.jump_mem (s : State) (a : Addr) : (s.jump a).mem = s.mem := rfl
@[simp] theorem State.jump_l2 (s : State) (a : Addr) : (s.jump a).l2 = s.l2 := rfl
@[simp] theorem State.jump_owner (s : State) (a : Addr) : (s.jump a).owner = s.owner := rfl
@[simp] theorem State.jump_poison (s : State) (a : Addr) : (s.jump a).poison = s.poison := rfl
@[simp] theorem State.jump_clusterTlb (s : State) (a : Addr) : (s.jump a).clusterTlb = s.clusterTlb := rfl
@[simp] theorem State.jump_dpit (s : State) (a : Addr) : (s.jump a).dpit = s.dpit := rfl
@[simp] theorem State.jump_moves (s : State) (a : Addr) : (s.jump a).moves = s.moves := rfl
@[simp] theorem State.jump_hot (s : State) (a : Addr) : (s.jump a).hot = s.hot := rfl
@[simp] theorem State.jump_reserve (s : State) (a : Addr) : (s.jump a).reserve = s.reserve := rfl
@[simp] theorem State.jump_net (s : State) (a : Addr) : (s.jump a).net = s.net := rfl
@[simp] theorem State.jump_nextRid (s : State) (a : Addr) : (s.jump a).nextRid = s.nextRid := rfl
@[simp] theorem State.jump_doms (s : State) (a : Addr) : (s.jump a).doms = s.doms := rfl
@[simp] theorem State.jump_buffered (s : State) (a : Addr) : (s.jump a).buffered = s.buffered := rfl
@[simp] theorem State.jump_mcmds (s : State) (a : Addr) : (s.jump a).mcmds = s.mcmds := rfl
@[simp] theorem State.jump_applied (s : State) (a : Addr) : (s.jump a).applied = s.applied := rfl
@[simp] theorem State.jump_stepped (s : State) (a : Addr) : (s.jump a).stepped = s.stepped := rfl
@[simp] theorem State.jump_dev (s : State) (a : Addr) : (s.jump a).dev = s.dev := rfl
@[simp] theorem State.jump_agenda (s : State) (a : Addr) : (s.jump a).agenda = s.agenda := rfl
@[simp] theorem State.jump_issued (s : State) (a : Addr) : (s.jump a).issued = s.issued := rfl
@[simp] theorem State.jump_visited (s : State) (a : Addr) : (s.jump a).visited = s.visited := rfl
@[simp] theorem State.jump_choices (s : State) (a : Addr) : (s.jump a).choices = s.choices := rfl
@[simp] theorem State.jump_chosen (s : State) (a : Addr) : (s.jump a).chosen = s.chosen := rfl
@[simp] theorem State.dropReq_powered (s : State) (i : Nat) : (s.dropReq i).powered = s.powered := rfl
@[simp] theorem State.dropReq_cycle (s : State) (i : Nat) : (s.dropReq i).cycle = s.cycle := rfl
@[simp] theorem State.dropReq_cores (s : State) (i : Nat) : (s.dropReq i).cores = s.cores := rfl
@[simp] theorem State.dropReq_parts (s : State) (i : Nat) : (s.dropReq i).parts = s.parts := rfl
@[simp] theorem State.dropReq_mem (s : State) (i : Nat) : (s.dropReq i).mem = s.mem := rfl
@[simp] theorem State.dropReq_l2 (s : State) (i : Nat) : (s.dropReq i).l2 = s.l2 := rfl
@[simp] theorem State.dropReq_owner (s : State) (i : Nat) : (s.dropReq i).owner = s.owner := rfl
@[simp] theorem State.dropReq_poison (s : State) (i : Nat) : (s.dropReq i).poison = s.poison := rfl
@[simp] theorem State.dropReq_clusterTlb (s : State) (i : Nat) : (s.dropReq i).clusterTlb = s.clusterTlb := rfl
@[simp] theorem State.dropReq_dpit (s : State) (i : Nat) : (s.dropReq i).dpit = s.dpit := rfl
@[simp] theorem State.dropReq_moves (s : State) (i : Nat) : (s.dropReq i).moves = s.moves := rfl
@[simp] theorem State.dropReq_hot (s : State) (i : Nat) : (s.dropReq i).hot = s.hot := rfl
@[simp] theorem State.dropReq_reserve (s : State) (i : Nat) : (s.dropReq i).reserve = s.reserve := rfl
@[simp] theorem State.dropReq_nextRid (s : State) (i : Nat) : (s.dropReq i).nextRid = s.nextRid := rfl
@[simp] theorem State.dropReq_doms (s : State) (i : Nat) : (s.dropReq i).doms = s.doms := rfl
@[simp] theorem State.dropReq_buffered (s : State) (i : Nat) : (s.dropReq i).buffered = s.buffered := rfl
@[simp] theorem State.dropReq_mcmds (s : State) (i : Nat) : (s.dropReq i).mcmds = s.mcmds := rfl
@[simp] theorem State.dropReq_applied (s : State) (i : Nat) : (s.dropReq i).applied = s.applied := rfl
@[simp] theorem State.dropReq_stepped (s : State) (i : Nat) : (s.dropReq i).stepped = s.stepped := rfl
@[simp] theorem State.dropReq_dev (s : State) (i : Nat) : (s.dropReq i).dev = s.dev := rfl
@[simp] theorem State.dropReq_agenda (s : State) (i : Nat) : (s.dropReq i).agenda = s.agenda := rfl
@[simp] theorem State.dropReq_cur (s : State) (i : Nat) : (s.dropReq i).cur = s.cur := rfl
@[simp] theorem State.dropReq_issued (s : State) (i : Nat) : (s.dropReq i).issued = s.issued := rfl
@[simp] theorem State.dropReq_visited (s : State) (i : Nat) : (s.dropReq i).visited = s.visited := rfl
@[simp] theorem State.dropReq_choices (s : State) (i : Nat) : (s.dropReq i).choices = s.choices := rfl
@[simp] theorem State.dropReq_chosen (s : State) (i : Nat) : (s.dropReq i).chosen = s.chosen := rfl
@[simp] theorem State.setPart_powered (s : State) (p : Nat) (x : Part) : (s.setPart p x).powered = s.powered := rfl
@[simp] theorem State.setPart_cycle (s : State) (p : Nat) (x : Part) : (s.setPart p x).cycle = s.cycle := rfl
@[simp] theorem State.setPart_cores (s : State) (p : Nat) (x : Part) : (s.setPart p x).cores = s.cores := rfl
@[simp] theorem State.setPart_mem (s : State) (p : Nat) (x : Part) : (s.setPart p x).mem = s.mem := rfl
@[simp] theorem State.setPart_l2 (s : State) (p : Nat) (x : Part) : (s.setPart p x).l2 = s.l2 := rfl
@[simp] theorem State.setPart_owner (s : State) (p : Nat) (x : Part) : (s.setPart p x).owner = s.owner := rfl
@[simp] theorem State.setPart_poison (s : State) (p : Nat) (x : Part) : (s.setPart p x).poison = s.poison := rfl
@[simp] theorem State.setPart_clusterTlb (s : State) (p : Nat) (x : Part) : (s.setPart p x).clusterTlb = s.clusterTlb := rfl
@[simp] theorem State.setPart_dpit (s : State) (p : Nat) (x : Part) : (s.setPart p x).dpit = s.dpit := rfl
@[simp] theorem State.setPart_moves (s : State) (p : Nat) (x : Part) : (s.setPart p x).moves = s.moves := rfl
@[simp] theorem State.setPart_hot (s : State) (p : Nat) (x : Part) : (s.setPart p x).hot = s.hot := rfl
@[simp] theorem State.setPart_reserve (s : State) (p : Nat) (x : Part) : (s.setPart p x).reserve = s.reserve := rfl
@[simp] theorem State.setPart_net (s : State) (p : Nat) (x : Part) : (s.setPart p x).net = s.net := rfl
@[simp] theorem State.setPart_nextRid (s : State) (p : Nat) (x : Part) : (s.setPart p x).nextRid = s.nextRid := rfl
@[simp] theorem State.setPart_doms (s : State) (p : Nat) (x : Part) : (s.setPart p x).doms = s.doms := rfl
@[simp] theorem State.setPart_buffered (s : State) (p : Nat) (x : Part) : (s.setPart p x).buffered = s.buffered := rfl
@[simp] theorem State.setPart_mcmds (s : State) (p : Nat) (x : Part) : (s.setPart p x).mcmds = s.mcmds := rfl
@[simp] theorem State.setPart_applied (s : State) (p : Nat) (x : Part) : (s.setPart p x).applied = s.applied := rfl
@[simp] theorem State.setPart_stepped (s : State) (p : Nat) (x : Part) : (s.setPart p x).stepped = s.stepped := rfl
@[simp] theorem State.setPart_dev (s : State) (p : Nat) (x : Part) : (s.setPart p x).dev = s.dev := rfl
@[simp] theorem State.setPart_agenda (s : State) (p : Nat) (x : Part) : (s.setPart p x).agenda = s.agenda := rfl
@[simp] theorem State.setPart_cur (s : State) (p : Nat) (x : Part) : (s.setPart p x).cur = s.cur := rfl
@[simp] theorem State.setPart_issued (s : State) (p : Nat) (x : Part) : (s.setPart p x).issued = s.issued := rfl
@[simp] theorem State.setPart_visited (s : State) (p : Nat) (x : Part) : (s.setPart p x).visited = s.visited := rfl
@[simp] theorem State.setPart_choices (s : State) (p : Nat) (x : Part) : (s.setPart p x).choices = s.choices := rfl
@[simp] theorem State.setPart_chosen (s : State) (p : Nat) (x : Part) : (s.setPart p x).chosen = s.chosen := rfl
@[simp] theorem State.modPart_powered (s : State) (p : Nat) (f : Part → Part) :
    (s.modPart p f).powered = s.powered := by unfold State.modPart; split <;> rfl
@[simp] theorem State.modPart_cycle (s : State) (p : Nat) (f : Part → Part) :
    (s.modPart p f).cycle = s.cycle := by unfold State.modPart; split <;> rfl
@[simp] theorem State.modPart_cores (s : State) (p : Nat) (f : Part → Part) :
    (s.modPart p f).cores = s.cores := by unfold State.modPart; split <;> rfl
@[simp] theorem State.modPart_mem (s : State) (p : Nat) (f : Part → Part) :
    (s.modPart p f).mem = s.mem := by unfold State.modPart; split <;> rfl
@[simp] theorem State.modPart_l2 (s : State) (p : Nat) (f : Part → Part) :
    (s.modPart p f).l2 = s.l2 := by unfold State.modPart; split <;> rfl
@[simp] theorem State.modPart_owner (s : State) (p : Nat) (f : Part → Part) :
    (s.modPart p f).owner = s.owner := by unfold State.modPart; split <;> rfl
@[simp] theorem State.modPart_poison (s : State) (p : Nat) (f : Part → Part) :
    (s.modPart p f).poison = s.poison := by unfold State.modPart; split <;> rfl
@[simp] theorem State.modPart_clusterTlb (s : State) (p : Nat) (f : Part → Part) :
    (s.modPart p f).clusterTlb = s.clusterTlb := by unfold State.modPart; split <;> rfl
@[simp] theorem State.modPart_dpit (s : State) (p : Nat) (f : Part → Part) :
    (s.modPart p f).dpit = s.dpit := by unfold State.modPart; split <;> rfl
@[simp] theorem State.modPart_moves (s : State) (p : Nat) (f : Part → Part) :
    (s.modPart p f).moves = s.moves := by unfold State.modPart; split <;> rfl
@[simp] theorem State.modPart_hot (s : State) (p : Nat) (f : Part → Part) :
    (s.modPart p f).hot = s.hot := by unfold State.modPart; split <;> rfl
@[simp] theorem State.modPart_reserve (s : State) (p : Nat) (f : Part → Part) :
    (s.modPart p f).reserve = s.reserve := by unfold State.modPart; split <;> rfl
@[simp] theorem State.modPart_net (s : State) (p : Nat) (f : Part → Part) :
    (s.modPart p f).net = s.net := by unfold State.modPart; split <;> rfl
@[simp] theorem State.modPart_nextRid (s : State) (p : Nat) (f : Part → Part) :
    (s.modPart p f).nextRid = s.nextRid := by unfold State.modPart; split <;> rfl
@[simp] theorem State.modPart_doms (s : State) (p : Nat) (f : Part → Part) :
    (s.modPart p f).doms = s.doms := by unfold State.modPart; split <;> rfl
@[simp] theorem State.modPart_buffered (s : State) (p : Nat) (f : Part → Part) :
    (s.modPart p f).buffered = s.buffered := by unfold State.modPart; split <;> rfl
@[simp] theorem State.modPart_mcmds (s : State) (p : Nat) (f : Part → Part) :
    (s.modPart p f).mcmds = s.mcmds := by unfold State.modPart; split <;> rfl
@[simp] theorem State.modPart_applied (s : State) (p : Nat) (f : Part → Part) :
    (s.modPart p f).applied = s.applied := by unfold State.modPart; split <;> rfl
@[simp] theorem State.modPart_stepped (s : State) (p : Nat) (f : Part → Part) :
    (s.modPart p f).stepped = s.stepped := by unfold State.modPart; split <;> rfl
@[simp] theorem State.modPart_dev (s : State) (p : Nat) (f : Part → Part) :
    (s.modPart p f).dev = s.dev := by unfold State.modPart; split <;> rfl
@[simp] theorem State.modPart_agenda (s : State) (p : Nat) (f : Part → Part) :
    (s.modPart p f).agenda = s.agenda := by unfold State.modPart; split <;> rfl
@[simp] theorem State.modPart_cur (s : State) (p : Nat) (f : Part → Part) :
    (s.modPart p f).cur = s.cur := by unfold State.modPart; split <;> rfl
@[simp] theorem State.modPart_issued (s : State) (p : Nat) (f : Part → Part) :
    (s.modPart p f).issued = s.issued := by unfold State.modPart; split <;> rfl
@[simp] theorem State.modPart_visited (s : State) (p : Nat) (f : Part → Part) :
    (s.modPart p f).visited = s.visited := by unfold State.modPart; split <;> rfl
@[simp] theorem State.modPart_choices (s : State) (p : Nat) (f : Part → Part) :
    (s.modPart p f).choices = s.choices := by unfold State.modPart; split <;> rfl
@[simp] theorem State.modPart_chosen (s : State) (p : Nat) (f : Part → Part) :
    (s.modPart p f).chosen = s.chosen := by unfold State.modPart; split <;> rfl
@[simp] theorem State.setReg_powered (s : State) (l : Nat) (r : Reg) (v : BitVec 128) :
    (s.setReg l r v).powered = s.powered := by unfold State.setReg; (repeat' split) <;> rfl
@[simp] theorem State.setX_powered (s : State) (l : Nat) (d : BitVec 5) (v : Word) :
    (s.setX l d v).powered = s.powered := State.setReg_powered ..
@[simp] theorem State.setP_powered (s : State) (l d : Nat) (v : PWord) :
    (s.setP l d v).powered = s.powered := State.setReg_powered ..
@[simp] theorem State.setReg_cycle (s : State) (l : Nat) (r : Reg) (v : BitVec 128) :
    (s.setReg l r v).cycle = s.cycle := by unfold State.setReg; (repeat' split) <;> rfl
@[simp] theorem State.setX_cycle (s : State) (l : Nat) (d : BitVec 5) (v : Word) :
    (s.setX l d v).cycle = s.cycle := State.setReg_cycle ..
@[simp] theorem State.setP_cycle (s : State) (l d : Nat) (v : PWord) : (s.setP l d v).cycle = s.cycle := State.setReg_cycle ..
@[simp] theorem State.setReg_parts (s : State) (l : Nat) (r : Reg) (v : BitVec 128) :
    (s.setReg l r v).parts = s.parts := by unfold State.setReg; (repeat' split) <;> rfl
@[simp] theorem State.setX_parts (s : State) (l : Nat) (d : BitVec 5) (v : Word) :
    (s.setX l d v).parts = s.parts := State.setReg_parts ..
@[simp] theorem State.setP_parts (s : State) (l d : Nat) (v : PWord) : (s.setP l d v).parts = s.parts := State.setReg_parts ..
@[simp] theorem State.setReg_mem (s : State) (l : Nat) (r : Reg) (v : BitVec 128) :
    (s.setReg l r v).mem = s.mem := by unfold State.setReg; (repeat' split) <;> rfl
@[simp] theorem State.setX_mem (s : State) (l : Nat) (d : BitVec 5) (v : Word) :
    (s.setX l d v).mem = s.mem := State.setReg_mem ..
@[simp] theorem State.setP_mem (s : State) (l d : Nat) (v : PWord) : (s.setP l d v).mem = s.mem := State.setReg_mem ..
@[simp] theorem State.setReg_l2 (s : State) (l : Nat) (r : Reg) (v : BitVec 128) :
    (s.setReg l r v).l2 = s.l2 := by unfold State.setReg; (repeat' split) <;> rfl
@[simp] theorem State.setX_l2 (s : State) (l : Nat) (d : BitVec 5) (v : Word) : (s.setX l d v).l2 = s.l2 := State.setReg_l2 ..
@[simp] theorem State.setP_l2 (s : State) (l d : Nat) (v : PWord) : (s.setP l d v).l2 = s.l2 := State.setReg_l2 ..
@[simp] theorem State.setReg_owner (s : State) (l : Nat) (r : Reg) (v : BitVec 128) :
    (s.setReg l r v).owner = s.owner := by unfold State.setReg; (repeat' split) <;> rfl
@[simp] theorem State.setX_owner (s : State) (l : Nat) (d : BitVec 5) (v : Word) :
    (s.setX l d v).owner = s.owner := State.setReg_owner ..
@[simp] theorem State.setP_owner (s : State) (l d : Nat) (v : PWord) : (s.setP l d v).owner = s.owner := State.setReg_owner ..
@[simp] theorem State.setReg_poison (s : State) (l : Nat) (r : Reg) (v : BitVec 128) :
    (s.setReg l r v).poison = s.poison := by unfold State.setReg; (repeat' split) <;> rfl
@[simp] theorem State.setX_poison (s : State) (l : Nat) (d : BitVec 5) (v : Word) :
    (s.setX l d v).poison = s.poison := State.setReg_poison ..
@[simp] theorem State.setP_poison (s : State) (l d : Nat) (v : PWord) :
    (s.setP l d v).poison = s.poison := State.setReg_poison ..
@[simp] theorem State.setReg_clusterTlb (s : State) (l : Nat) (r : Reg) (v : BitVec 128) :
    (s.setReg l r v).clusterTlb = s.clusterTlb := by unfold State.setReg; (repeat' split) <;> rfl
@[simp] theorem State.setX_clusterTlb (s : State) (l : Nat) (d : BitVec 5) (v : Word) :
    (s.setX l d v).clusterTlb = s.clusterTlb := State.setReg_clusterTlb ..
@[simp] theorem State.setP_clusterTlb (s : State) (l d : Nat) (v : PWord) :
    (s.setP l d v).clusterTlb = s.clusterTlb := State.setReg_clusterTlb ..
@[simp] theorem State.setReg_dpit (s : State) (l : Nat) (r : Reg) (v : BitVec 128) :
    (s.setReg l r v).dpit = s.dpit := by unfold State.setReg; (repeat' split) <;> rfl
@[simp] theorem State.setX_dpit (s : State) (l : Nat) (d : BitVec 5) (v : Word) :
    (s.setX l d v).dpit = s.dpit := State.setReg_dpit ..
@[simp] theorem State.setP_dpit (s : State) (l d : Nat) (v : PWord) : (s.setP l d v).dpit = s.dpit := State.setReg_dpit ..
@[simp] theorem State.setReg_moves (s : State) (l : Nat) (r : Reg) (v : BitVec 128) :
    (s.setReg l r v).moves = s.moves := by unfold State.setReg; (repeat' split) <;> rfl
@[simp] theorem State.setX_moves (s : State) (l : Nat) (d : BitVec 5) (v : Word) :
    (s.setX l d v).moves = s.moves := State.setReg_moves ..
@[simp] theorem State.setP_moves (s : State) (l d : Nat) (v : PWord) : (s.setP l d v).moves = s.moves := State.setReg_moves ..
@[simp] theorem State.setReg_hot (s : State) (l : Nat) (r : Reg) (v : BitVec 128) :
    (s.setReg l r v).hot = s.hot := by unfold State.setReg; (repeat' split) <;> rfl
@[simp] theorem State.setX_hot (s : State) (l : Nat) (d : BitVec 5) (v : Word) :
    (s.setX l d v).hot = s.hot := State.setReg_hot ..
@[simp] theorem State.setP_hot (s : State) (l d : Nat) (v : PWord) : (s.setP l d v).hot = s.hot := State.setReg_hot ..
@[simp] theorem State.setReg_reserve (s : State) (l : Nat) (r : Reg) (v : BitVec 128) :
    (s.setReg l r v).reserve = s.reserve := by unfold State.setReg; (repeat' split) <;> rfl
@[simp] theorem State.setX_reserve (s : State) (l : Nat) (d : BitVec 5) (v : Word) :
    (s.setX l d v).reserve = s.reserve := State.setReg_reserve ..
@[simp] theorem State.setP_reserve (s : State) (l d : Nat) (v : PWord) :
    (s.setP l d v).reserve = s.reserve := State.setReg_reserve ..
@[simp] theorem State.setReg_net (s : State) (l : Nat) (r : Reg) (v : BitVec 128) :
    (s.setReg l r v).net = s.net := by unfold State.setReg; (repeat' split) <;> rfl
@[simp] theorem State.setX_net (s : State) (l : Nat) (d : BitVec 5) (v : Word) :
    (s.setX l d v).net = s.net := State.setReg_net ..
@[simp] theorem State.setP_net (s : State) (l d : Nat) (v : PWord) : (s.setP l d v).net = s.net := State.setReg_net ..
@[simp] theorem State.setReg_nextRid (s : State) (l : Nat) (r : Reg) (v : BitVec 128) :
    (s.setReg l r v).nextRid = s.nextRid := by unfold State.setReg; (repeat' split) <;> rfl
@[simp] theorem State.setX_nextRid (s : State) (l : Nat) (d : BitVec 5) (v : Word) :
    (s.setX l d v).nextRid = s.nextRid := State.setReg_nextRid ..
@[simp] theorem State.setP_nextRid (s : State) (l d : Nat) (v : PWord) :
    (s.setP l d v).nextRid = s.nextRid := State.setReg_nextRid ..
@[simp] theorem State.setReg_doms (s : State) (l : Nat) (r : Reg) (v : BitVec 128) :
    (s.setReg l r v).doms = s.doms := by unfold State.setReg; (repeat' split) <;> rfl
@[simp] theorem State.setX_doms (s : State) (l : Nat) (d : BitVec 5) (v : Word) :
    (s.setX l d v).doms = s.doms := State.setReg_doms ..
@[simp] theorem State.setP_doms (s : State) (l d : Nat) (v : PWord) : (s.setP l d v).doms = s.doms := State.setReg_doms ..
@[simp] theorem State.setReg_buffered (s : State) (l : Nat) (r : Reg) (v : BitVec 128) :
    (s.setReg l r v).buffered = s.buffered := by unfold State.setReg; (repeat' split) <;> rfl
@[simp] theorem State.setX_buffered (s : State) (l : Nat) (d : BitVec 5) (v : Word) :
    (s.setX l d v).buffered = s.buffered := State.setReg_buffered ..
@[simp] theorem State.setP_buffered (s : State) (l d : Nat) (v : PWord) :
    (s.setP l d v).buffered = s.buffered := State.setReg_buffered ..
@[simp] theorem State.setReg_mcmds (s : State) (l : Nat) (r : Reg) (v : BitVec 128) :
    (s.setReg l r v).mcmds = s.mcmds := by unfold State.setReg; (repeat' split) <;> rfl
@[simp] theorem State.setX_mcmds (s : State) (l : Nat) (d : BitVec 5) (v : Word) :
    (s.setX l d v).mcmds = s.mcmds := State.setReg_mcmds ..
@[simp] theorem State.setP_mcmds (s : State) (l d : Nat) (v : PWord) : (s.setP l d v).mcmds = s.mcmds := State.setReg_mcmds ..
@[simp] theorem State.setReg_applied (s : State) (l : Nat) (r : Reg) (v : BitVec 128) :
    (s.setReg l r v).applied = s.applied := by unfold State.setReg; (repeat' split) <;> rfl
@[simp] theorem State.setX_applied (s : State) (l : Nat) (d : BitVec 5) (v : Word) :
    (s.setX l d v).applied = s.applied := State.setReg_applied ..
@[simp] theorem State.setP_applied (s : State) (l d : Nat) (v : PWord) :
    (s.setP l d v).applied = s.applied := State.setReg_applied ..
@[simp] theorem State.setReg_stepped (s : State) (l : Nat) (r : Reg) (v : BitVec 128) :
    (s.setReg l r v).stepped = s.stepped := by unfold State.setReg; (repeat' split) <;> rfl
@[simp] theorem State.setX_stepped (s : State) (l : Nat) (d : BitVec 5) (v : Word) :
    (s.setX l d v).stepped = s.stepped := State.setReg_stepped ..
@[simp] theorem State.setP_stepped (s : State) (l d : Nat) (v : PWord) :
    (s.setP l d v).stepped = s.stepped := State.setReg_stepped ..
@[simp] theorem State.setReg_dev (s : State) (l : Nat) (r : Reg) (v : BitVec 128) :
    (s.setReg l r v).dev = s.dev := by unfold State.setReg; (repeat' split) <;> rfl
@[simp] theorem State.setX_dev (s : State) (l : Nat) (d : BitVec 5) (v : Word) :
    (s.setX l d v).dev = s.dev := State.setReg_dev ..
@[simp] theorem State.setP_dev (s : State) (l d : Nat) (v : PWord) : (s.setP l d v).dev = s.dev := State.setReg_dev ..
@[simp] theorem State.setReg_agenda (s : State) (l : Nat) (r : Reg) (v : BitVec 128) :
    (s.setReg l r v).agenda = s.agenda := by unfold State.setReg; (repeat' split) <;> rfl
@[simp] theorem State.setX_agenda (s : State) (l : Nat) (d : BitVec 5) (v : Word) :
    (s.setX l d v).agenda = s.agenda := State.setReg_agenda ..
@[simp] theorem State.setP_agenda (s : State) (l d : Nat) (v : PWord) :
    (s.setP l d v).agenda = s.agenda := State.setReg_agenda ..
@[simp] theorem State.setReg_cur (s : State) (l : Nat) (r : Reg) (v : BitVec 128) :
    (s.setReg l r v).cur = s.cur := by unfold State.setReg; (repeat' split) <;> rfl
@[simp] theorem State.setX_cur (s : State) (l : Nat) (d : BitVec 5) (v : Word) :
    (s.setX l d v).cur = s.cur := State.setReg_cur ..
@[simp] theorem State.setP_cur (s : State) (l d : Nat) (v : PWord) : (s.setP l d v).cur = s.cur := State.setReg_cur ..
@[simp] theorem State.setReg_issued (s : State) (l : Nat) (r : Reg) (v : BitVec 128) :
    (s.setReg l r v).issued = s.issued := by unfold State.setReg; (repeat' split) <;> rfl
@[simp] theorem State.setX_issued (s : State) (l : Nat) (d : BitVec 5) (v : Word) :
    (s.setX l d v).issued = s.issued := State.setReg_issued ..
@[simp] theorem State.setP_issued (s : State) (l d : Nat) (v : PWord) :
    (s.setP l d v).issued = s.issued := State.setReg_issued ..
@[simp] theorem State.setReg_visited (s : State) (l : Nat) (r : Reg) (v : BitVec 128) :
    (s.setReg l r v).visited = s.visited := by unfold State.setReg; (repeat' split) <;> rfl
@[simp] theorem State.setX_visited (s : State) (l : Nat) (d : BitVec 5) (v : Word) :
    (s.setX l d v).visited = s.visited := State.setReg_visited ..
@[simp] theorem State.setP_visited (s : State) (l d : Nat) (v : PWord) :
    (s.setP l d v).visited = s.visited := State.setReg_visited ..
@[simp] theorem State.setReg_choices (s : State) (l : Nat) (r : Reg) (v : BitVec 128) :
    (s.setReg l r v).choices = s.choices := by unfold State.setReg; (repeat' split) <;> rfl
@[simp] theorem State.setReg_chosen (s : State) (l : Nat) (r : Reg) (v : BitVec 128) :
    (s.setReg l r v).chosen = s.chosen := by unfold State.setReg; (repeat' split) <;> rfl
@[simp] theorem State.setX_choices (s : State) (l : Nat) (d : BitVec 5) (v : Word) :
    (s.setX l d v).choices = s.choices := State.setReg_choices ..
@[simp] theorem State.setX_chosen (s : State) (l : Nat) (d : BitVec 5) (v : Word) :
    (s.setX l d v).chosen = s.chosen := State.setReg_chosen ..
@[simp] theorem State.setP_choices (s : State) (l d : Nat) (v : PWord) :
    (s.setP l d v).choices = s.choices := State.setReg_choices ..
@[simp] theorem State.setP_chosen (s : State) (l d : Nat) (v : PWord) :
    (s.setP l d v).chosen = s.chosen := State.setReg_chosen ..

end Sys2Proof.Machine
end

