-- ==== Sys2Proof/Laws/Words.lean ====
section
/-! SUPPORT. Cores, strands and registers after their updates, and how a word ends: what each ending of a word leaves. -/
namespace Sys2Proof.Machine

/-! ### Cores and strands -/

@[simp] theorem State.core_setCore_same (s : State) (n : Nat) (c : Core) : (s.setCore n c).core n = c := by
  simp [State.core, State.setCore]

theorem State.core_setCore_other (s : State) {n k : Nat} (c : Core) (h : k ≠ n) : (s.setCore n c).core k = s.core k := by
  simp [State.core, State.setCore, getKey_putKey_other _ _ h]

@[simp] theorem State.core_modCore_same (s : State) (n : Nat) (f : Core → Core) : (s.modCore n f).core n = f (s.core n) := by
  simp [State.modCore]

theorem State.core_modCore_other (s : State) {n k : Nat} (f : Core → Core) (h : k ≠ n) : (s.modCore n f).core k = s.core k :=
  s.core_setCore_other _ h

theorem Core.strand_setStrand_same (c : Core) {i : Nat} (t : Strand) (h : i < 12) : (c.setStrand i t).strand i = t := by
  simp [Core.strand, Core.setStrand, h]

theorem Core.strand_setStrand_other (c : Core) {i j : Nat} (t : Strand) (h : j ≠ i) :
    (c.setStrand i t).strand j = c.strand j := by
  simp [Core.strand, Core.setStrand, h.symm]

theorem State.strand_modStrand_same (s : State) (n : Nat) {i : Nat} (f : Strand → Strand) (h : i < 12) :
    (s.modStrand n i f).strand n i = f (s.strand n i) := by
  simp [State.strand, State.modStrand, Core.strand_setStrand_same, h]

theorem State.strand_modStrand_slot (s : State) (n : Nat) {i j : Nat} (f : Strand → Strand) (h : j ≠ i) :
    (s.modStrand n i f).strand n j = s.strand n j := by
  simp [State.strand, State.modStrand, Core.strand_setStrand_other, h]

theorem State.strand_modStrand_core (s : State) {n k : Nat} (i j : Nat) (f : Strand → Strand) (h : k ≠ n) :
    (s.modStrand n i f).strand k j = s.strand k j := by
  simp [State.strand, State.modStrand, State.core_setCore_other, h]

theorem State.me_modMe (s : State) (f : Strand → Strand) (h : s.cur.slot < 12) : (s.modMe f).me = f s.me :=
  s.strand_modStrand_same _ f h

theorem putKey_putKey {β : Type} (m : List (Nat × β)) (a : Nat) (b c : β) : putKey (putKey m a b) a c = putKey m a c := by
  induction m with
  | nil => simp [putKey]
  | cons x r ih =>
    obtain ⟨k, v⟩ := x
    simp only [putKey]
    by_cases h : a < k
    · simp [h, putKey]
    · by_cases e : a = k
      · simp [e, putKey]
      · simp [h, e, putKey, ih]

theorem Core.setStrand_setStrand (c : Core) (i : Nat) (t u : Strand) : (c.setStrand i t).setStrand i u = c.setStrand i u := by
  simp only [Core.setStrand]
  congr 1
  ext j hj
  by_cases h : i = j <;> simp [h]

/-- Two changes of one strand are one change. -/
theorem State.modStrand_modStrand (s : State) (n : Nat) {i : Nat} (f g : Strand → Strand) (h : i < 12) :
    (s.modStrand n i f).modStrand n i g = s.modStrand n i fun t => g (f t) := by
  simp [State.modStrand, State.setCore, State.core, State.strand, putKey_putKey, Core.setStrand_setStrand,
    Core.strand_setStrand_same, h]

theorem State.modMe_modMe (s : State) (f g : Strand → Strand) (h : s.cur.slot < 12) :
    (s.modMe f).modMe g = s.modMe fun t => g (f t) := s.modStrand_modStrand _ f g h

/-- A change of a strand depends on its value at that strand only. -/
theorem State.modMe_congr (s : State) {f g : Strand → Strand} (h : f s.me = g s.me) : s.modMe f = s.modMe g := by
  simp only [State.modMe, State.modStrand]
  rw [show f (s.strand s.cur.cn s.cur.slot) = g (s.strand s.cur.cn s.cur.slot) from h]

/-! ### Registers -/

theorem Strand.getX_setX_same (t : Strand) {r : Nat} (v : Word) (h : r < 32) (h0 : r ≠ 0) : (t.setX r v).getX r = v := by
  simp [Strand.getX, Strand.setX, h, h0]

theorem Strand.getX_setX_other (t : Strand) {r k : Nat} (v : Word) (h : k ≠ r) : (t.setX r v).getX k = t.getX k := by
  by_cases h0 : r = 0 <;> simp [Strand.getX, Strand.setX, h0, h.symm]

theorem Strand.setX_zero (t : Strand) (v : Word) : t.setX 0 v = t := rfl

theorem Strand.getV_setV_same (t : Strand) {r : Nat} (v : VWord) (h : r < 16) : (t.setV r v).getV r = v := by
  simp [Strand.getV, Strand.setV, h]

theorem Strand.getV_setV_other (t : Strand) {r k : Nat} (v : VWord) (h : k ≠ r) : (t.setV r v).getV k = t.getV k := by
  simp [Strand.getV, Strand.setV, h.symm]

theorem Strand.getP_setP_same (t : Strand) {r : Nat} (v : PWord) (h : r < 24) : (t.setP r v).getP r = v := by
  simp [Strand.getP, Strand.setP, h, show ¬ r = 31 by omega]

theorem Strand.getP_setP_other (t : Strand) {r k : Nat} (v : PWord) (h : k ≠ r) : (t.setP r v).getP k = t.getP k := by
  simp [Strand.getP, Strand.setP, h.symm]

/-! ### The situation of a word -/

theorem State.alone_iff {s : State} : s.alone = true ↔ s.cur.multi = false ∧ s.cur.spread = false ∧
    s.cur.later = (0, 0) ∧ s.cur.src = none ∧ s.cur.target = none ∧
    s.cur.len = 1 ∧ s.cur.pc = s.cur.bundle ∧ s.cur.slot < 12 ∧ s.me.susp = none ∧ s.me.mid = none ∧ s.myCore.regs.exposed = false ∧
    s.me.counted = false ∧ ∀ r ∈ s.net, r.rid < s.cur.since := by
  simp [State.alone, and_assoc]

theorem State.src_of_alone {s : State} (h : s.alone = true) : s.src = s.me := by
  have := (State.alone_iff.1 h).2.2.2.1
  simp [State.src, State.srcCore, this, State.me, State.myCore, State.strand]

theorem State.x_of_alone {s : State} (h : s.alone = true) (r : BitVec 5) : s.x r = s.me.getX r.toNat := by
  rw [State.x, State.src_of_alone h]

theorem State.p_of_alone {s : State} (h : s.alone = true) (r : Nat) : s.p r = s.me.getP r := by
  rw [State.p, State.src_of_alone h]

theorem State.after_of_alone {s : State} (h : s.alone = true) : s.cur.after = s.cur.bundle + 4 := by
  rw [Cursor.after, (State.alone_iff.1 h).2.2.2.2.2.1]
  rfl

theorem State.setReg_of_alone {s : State} (h : s.alone = true) (l : Nat) (r : Reg) (v : BitVec 128) :
    s.setReg l r v = s.modMe fun t => t.setReg r v := by
  simp [State.setReg, (State.alone_iff.1 h).2.2.2.2.2.2.2.2.2.2.1]

theorem State.setX_of_alone {s : State} (h : s.alone = true) (l : Nat) (d : BitVec 5) (v : Word) :
    s.setX l d v = s.modMe fun t => t.setX d.toNat v := by
  rw [State.setX, State.setReg_of_alone h]
  simp [Strand.setReg]

theorem State.setP_of_alone {s : State} (h : s.alone = true) (l d : Nat) (v : PWord) :
    s.setP l d v = s.modMe fun t => t.setP d v := by
  rw [State.setP, State.setReg_of_alone h]
  simp [Strand.setReg]

/-! ### How a word ends -/

theorem flagsTrap_zero (f : Nat) : flagsTrap f 0 = false := by simp [flagsTrap, fld]

/-- A word that is its whole bundle completes: its effects, its flags, and the strand goes on. -/
theorem State.settle_done {s t : State} {flags : Nat} (h : s.alone = true) (hf : flagsTrap s.me.fctl.toNat flags = false)
    (ht : t.me.susp = none) : s.settle (.done t flags) =
      .next (t.continuesAt flags (t.cur.target.getD (s.cur.bundle + 4)) t.cur.target.isSome) := by
  simp only [State.settle, (State.alone_iff.1 h).1, State.commit, State.src_of_alone h, hf, Bool.false_eq_true, if_false,
    State.continuesAt, State.after_of_alone h]
  congr 2
  exact t.modMe_congr (by simp [ht])

/-- A word that changes only its strand completes without flags. -/
theorem State.settle_modMe {s : State} (h : s.alone = true) (f : Strand → Strand) (hf : (f s.me).susp = none) :
    s.settle (.done (s.modMe f) 0) = .next (s.modMe f).thenNext := by
  have a := State.alone_iff.1 h
  rw [State.settle_done h (flagsTrap_zero _) (by rw [State.me_modMe _ _ a.2.2.2.2.2.2.2.1]; exact hf)]
  simp [a.2.2.2.2.1, State.thenNext]

/-- A scalar result (R315). -/
theorem State.writeX_alone {s : State} (h : s.alone = true) (l : Nat) (d : BitVec 5) (v : Word) :
    s.writeX l d v = .next (s.wroteX d v) := by
  rw [State.writeX, State.setX_of_alone h, State.settle_modMe h _ (by simp [(State.alone_iff.1 h).2.2.2.2.2.2.2.2.1])]
  rfl

/-- A predicate result (R387). -/
theorem State.writeP_alone {s : State} (h : s.alone = true) (d : BitVec 5) (v : PWord) :
    s.writeP d.toNat v = .next (s.wroteP d v) := by
  rw [State.writeP, State.setP_of_alone h, State.settle_modMe h _ (by simp [(State.alone_iff.1 h).2.2.2.2.2.2.2.2.1])]
  rfl

/-- A word that traps has no effect but its exception (R61, R272). -/
theorem State.settle_trap {s : State} (h : s.cur.multi = false) (c : Nat) (a : Word) (hh : c ≠ heldCause) :
    s.settle (.trap c a) = .next ((s.raise c a).setEnding (.trap c a)) := by
  simp [State.settle, h, hh]

theorem filterMap_id_of {α : Type} {f : α → Option α} {l : List α} (h : ∀ p ∈ l, f p = some p) : l.filterMap f = l := by
  induction l with
  | nil => rfl
  | cons x r ih =>
    rw [List.filterMap_cons, h x (List.mem_cons_self ..), ih fun p hp => h p (List.mem_cons_of_mem _ hp)]

/-- A turn passes without effect where no write is counted in turns (R257). -/
theorem Strand.tick_of_not_counted {t : Strand} (h : t.counted = false) : t.tick = t := by
  simp only [Strand.counted, List.any_eq_false, Option.isSome_iff_ne_none, ne_eq, Decidable.not_not] at h
  dsimp only [Strand.tick]
  rw [List.filter_eq_nil_iff.2 fun p hp => by simp [h p hp], filterMap_id_of fun p hp => by simp [h p hp]]
  rfl

/-- Giving tiles back touches no strand. -/
@[simp] theorem Core.giveTiles_strands (c : Core) (slot : Nat) : (c.giveTiles slot).strands = c.strands := by
  have tile (d : Core) (f : Tile → Tile) (n : Nat) : (d.modTile n f).strands = d.strands := rfl
  have tiles (l : List Nat) (d : Core) : (l.foldl (fun d t => d.modTile t Tile.giveBack) d).strands = d.strands := by
    induction l generalizing d with
    | nil => rfl
    | cons x r ih => rw [List.foldl_cons, ih, tile]
  have back (d : Core) (t : Option Nat) (l : List Nat) (ok : Bool) : (d.giveBack t l ok).strands = d.strands := by
    unfold Core.giveBack
    rw [tiles]
    split <;> rfl
  have all (l : List (Addr × Hold)) (d : Core) : (l.foldl (fun d h => match h.2.taken with
      | some (t, l) => d.giveBack t l false
      | none => d) d).strands = d.strands := by
    induction l generalizing d with
    | nil => rfl
    | cons x r ih =>
      rw [List.foldl_cons, ih]
      split
      · exact back ..
      · rfl
  exact all _ _

@[simp] theorem State.strand_giveTiles (s : State) (n slot i : Nat) :
    (s.modCore n fun c => c.giveTiles slot).strand n i = s.strand n i := by
  simp [State.strand, Core.strand]

/-- An exception of a strand other than the handler suspends it, and changes nothing else (R272, R273). -/
theorem State.settle_trap_alone {s : State} (h : s.alone = true) (h11 : s.cur.slot ≠ 11) (c : Nat) (hc : c % 2 ^ 8 ≠ 0x13) (a : Word)
    (hh : c ≠ heldCause := by decide) :
    s.settle (.trap c a) = .next (s.suspendedAt c a (s.cur.resume c)) := by
  have b := State.alone_iff.1 h
  have hs := b.2.2.2.2.2.2.2.1
  have hm : (s.strand s.cur.cn s.cur.slot).dropMid = s.strand s.cur.cn s.cur.slot := by
    simp only [Strand.dropMid, show (s.strand s.cur.cn s.cur.slot).mid = none from b.2.2.2.2.2.2.2.2.2.1]
  rw [State.settle_trap b.1 c a hh]
  simp only [State.raise, State.takeException, hc, h11, if_false, State.suspendedAt]
  split
  · congr 2
    exact State.modMe_congr (s.modMyCore _) (by
      simp [State.me, State.modMyCore, hm])
  · congr 2
    change ((State.modMyCore s _).modMe _).modMe _ = (State.modMyCore s _).modMe _
    rw [State.modMe_modMe (s.modMyCore fun c => c.giveTiles s.cur.slot) _ _ hs]
    exact State.modMe_congr _ (by
      simp only [State.me, State.modMyCore, State.strand_giveTiles, State.modCore_cur, hm]
      rw [Strand.tick_of_not_counted (by simpa [Strand.counted, State.me] using b.2.2.2.2.2.2.2.2.2.2.2.1)])

/-- The fatal cause of a poisoned page walk stops the partition, and nothing else of the word takes effect (R285). -/
theorem State.settle_trap_poison {s : State} (h : s.alone = true) (c : Nat) (hc : c % 2 ^ 8 = 0x13) (a : Word) :
    s.settle (.trap c a) = .next (s.stoppedAt c a) := by
  have hr : s.cur.resume c = s.cur.bundle := by
    have h1 : c ≠ 0x0D ∧ c ≠ 0x10 ∧ c ≠ 0x17 := by refine ⟨?_, ?_, ?_⟩ <;> rintro rfl <;> simp at hc
    simp [Cursor.resume, h1]
  rw [State.settle_trap (State.alone_iff.1 h).1 c a (by rintro rfl; simp [heldCause] at hc)]
  have h19 : c % 256 = 19 := hc
  simp [State.raise, State.takeException, h19, hr, State.stoppedAt]

/-- A cause of an address, poisoned or not (R271, R285). -/
theorem State.settle_trap_refused {s : State} (h : s.alone = true) (h11 : s.cur.slot ≠ 11) (c : Nat) (a : Word) :
    s.settle (.trap c a) = .next (s.refusedAt c a) := by
  unfold State.refusedAt
  split
  · simp [State.settle, *]
  · split
    · exact State.settle_trap_poison h c ‹_› a
    · exact State.settle_trap_alone h h11 c ‹_› a ‹_›

/-- A word that waits changes nothing but the record of its ending. -/
theorem State.settle_wait (s : State) : s.settle .wait = .next (s.setEnding .waiting) := rfl

end Sys2Proof.Machine
end

