-- ==== Sys2Proof/Tests/Slice0.lean ====
section
/-! SUPPORT. Tests: ill-formed words, words written out from the spec, single steps with results worked out from the spec, and a
witness for the hypotheses of each statement. -/
namespace Sys2Proof.Tests
open Sys2Proof Sys2Proof.Machine

-- One theorem after the other: many `decide` proofs at once take many threads.
set_option Elab.async false

/-! ### Small states -/

/-- A running partition of three clusters and two dense tiles. -/
def part : Machine.Part := { Machine.Part.none with key := 5, clusters := [0, 1, 2], dense := [0, 1], status := .running }

/-- The cursor at a word that is a bundle by itself. -/
def cursor (cn slot : Nat) : Cursor := cursorAt cn slot 0x1000 1 false false none none 0

/-- A strand of a core that executes, changed as a test needs it. -/
def at_ (cn slot : Nat) (f : Strand → Strand) (g : Core → Core) : State :=
  let c := Core.reset.setStrand slot (f { Strand.empty with live := true, pc := 0x1000, sup := true })
  { State.reset with parts := [(0, part)], cores := [(cn, g c)], cycle := 1000, cur := cursor cn slot }

/-- A state whose executing strand has two registers set. -/
def regs2 (cn slot : Nat) (r : Nat) (v : Word) (q : Nat) (w : Word) : State := at_ cn slot (fun t => (t.setX r v).setX q w) id

/-- The next state, where there is one. -/
def after (o : Host.Outcome State Fault Refusal) : State :=
  match o with
  | .next t => t
  | _ => State.reset


/-- The word decodes to the instruction. -/
def reads (w : Nat) (i : Instr) : Bool :=
  match decodeWord (BitVec.ofNat 32 w) with
  | .ok j => j == i
  | .error _ => false
/-! ### Well-formedness: each check of R55, R63 to R71 and R82 to R92 refuses a term -/

theorem test_ill_formed_scalar : [Instr.cmp 0 24 1 2 0 0 0, .cmp 0 1 1 2 0 0 6, .cmpImm 0 24 1 0 0 5, .cmpImm 0 1 1 7 0 5, .extr 0 1 2 0 63 1,
    .ins 0 1 2 32 32, .lhi 0 1 3 5, .loop 0 0 1, .plog 0 31 1 2 6, .plog 0 1 24 2 6, .plog 0 1 2 30 6, .pmov 0 1 24 0, .pmov 0 24 1 0,
    .pcnt 0 1 25, .pset 0 24 1, .brp 0 24 0 1, .rep 16 1 1 1].all (!·.wellFormed) = true := by decide

theorem test_ill_formed_memory : [Instr.ld 0 1 2 7 0 0, .ld 0 1 2 0 3 0, .lda 0 1 2 7 0 0, .lda 0 1 2 0 6 0, .ldv 0 1 2 3 0, .st 0 1 2 7 0 0,
    .st 0 1 2 0 3 0, .stl 0 1 2 7 0 0, .stl 0 1 2 0 7 0, .stv 0 1 2 3 0, .amo 0 1 2 3 9 0 0 0, .amo 0 2 2 7 0 0 0 0, .amo 0 1 2 7 8 0 0 0,
    .cas 0 31 2 3 0 0 0, .cas 0 2 2 7 0 0 0, .fence 0 0 0 0 1, .fence 0 0 1 0 6, .ship 0 1 2 6, .tlbi 0 1 0 0, .tlbi 0 1 0 5].all
    (!·.wellFormed) = true := by decide

theorem test_ill_formed_tickets : [Instr.acvt 0 1 2 8, .acvt 0 1 2 14, .barv 0 24 1 0 0, .barv 0 1 1 24 0, .coll 0 1 2 5 0 0, .coll 0 1 2 0 31 0,
    .gather 0 1 2 1 0 3 0, .gatherp 0 1 31 0 0 2 0, .qhist 0 1 24 8, .qhist 0 1 0 7, .qhist 0 1 0 13, .qscale 0 1 2 10, .qscale 0 1 2 14,
    .send 0 1 2 5, .send 0 1 30 3, .send 0 1 2 0, .testt 0 24 1, .tinfo 0 1 2 3].all (!·.wellFormed) = true := by decide

theorem test_ill_formed_vector : [Instr.vadd 0 1 2 3 24 0, .vadd 0 1 2 3 0 11, .vsub 0 1 2 3 0 14, .vmul 0 1 2 3 30 1, .vmin 0 1 2 3 0 13,
    .vmax 0 1 2 3 0 12, .vabs 0 1 2 0 4, .vneg 0 1 2 0 7, .vabs 0 1 2 0 11, .vlogic 0 1 2 3 0 4, .vsh 0 1 2 3 0 8 0, .vsh 0 1 2 3 0 0 4,
    .vcmp 0 1 2 3 0 11 0, .vcmp 0 1 2 3 0 0 6, .vsel 0 1 2 3 0 13, .vbcast 0 1 2 0 13, .vext 0 1 2 4 2, .vext 0 1 2 0 13, .vins 0 1 2 2 3,
    .vcvt 0 1 2 0 0 0 31, .vcvt 0 1 2 11 0 0 31, .vcvt 0 1 2 8 1 13 31, .vcvt 0 1 2 8 1 0 31, .vfma 0 1 2 3 4 7 0, .vfma 0 1 2 3 4 11 0,
    .vdot 0 1 2 3 8 0, .vdot 0 1 2 3 14 0, .vmaci 0 1 2 3 0 2 0, .vred 0 1 2 3 0, .vred 0 1 2 0 11, .vrcp 0 1 2 0 7, .vrsq 0 1 2 0 11,
    .vexp2 0 1 2 24 8, .vlog2 0 1 2 0 12].all (!·.wellFormed) = true := by decide

/-- The operations of other agents have no word. -/
theorem test_ill_formed_agents : [Instr.qcfgClaim, .qhclr, .homeAccess 0, .powerOn, .illegalInstruction 0].all (!·.wellFormed) = true := by decide

/-! ### Words: the bits of each row of the opcode table, with a value in every field -/

theorem test_decode_rows_1 :
    [(0xE803_0C4B, .acvt 1 6 2 11),
    (0x8253_1D00, .add 1 5 6 7 1),
    (0x8453_5555, .addImm 1 5 6 21845),
    (0x8253_1D06, .and 1 5 6 7 1),
    (0x8653_5555, .andImm 1 5 6 21845),
    (0x8253_1D09, .andn 1 5 6 7 1),
    (0x9450_5555, .addpc 1 5 21845),
    (0xD653_0004, .adopt 1 5 6),
    (0xF853_0000, .alloc 1 5 6),
    (0xE853_0049, .aload 1 5 6 2 9),
    (0xE853_0449, .astore 1 5 6 2 9),
    (0xAA53_3073, .amo 1 5 6 3 1 1 2 3),
    (0xE803_0800, .azero 1 6),
    (0xDA03_0000, .bar 1 6),
    (0xDA53_1C21, .barv 1 5 6 7 1),
    (0x9955_5555, .br 1 22369621),
    (0x9C3D_5555, .brp 1 3 1 349525),
    (0x9B55_5555, .call 1 22369621),
    (0xD603_0002, .cancel 1 6)].all
      (fun e : Nat × Instr => reads e.1 e.2) = true := by decide

theorem test_decode_rows_2 :
    [(0xAA53_3433, .cas 1 5 6 3 1 2 3),
    (0xAC03_0801, .cflush 1 6 1),
    (0xAC03_0C01, .cinv 1 6 1),
    (0x8253_0110, .clz 1 5 6 1),
    (0x8253_0111, .ctz 1 5 6 1),
    (0x8253_1F34, .cmp 1 5 6 7 1 1 1),
    (0x8E53_1D55, .cmpImm 1 5 6 1 1 1365),
    (0xDC53_0489, .coll 1 5 6 1 4 9),
    (0xF603_0001, .commit 1 6),
    (0xF603_0002, .decommit 1 6),
    (0xD453_0049, .copy 1 5 6 2 9),
    (0xD453_0449, .shuffle 1 5 6 2 9),
    (0xCED3_0001, .ctrlv 1 1 6),
    (0x7400_0000, .ctxsv),
    (0x7400_0001, .ctxld),
    (0x5003_0001, .decr 6),
    (0xD603_0003, .detach 1 6),
    (0x8253_1F04, .div 1 5 6 7 1 1),
    (0x1E00_0005, .exit)].all
      (fun e : Nat × Instr => reads e.1 e.2) = true := by decide

theorem test_decode_rows_3 :
    [(0x9053_21C9, .extr 1 5 6 1 7 9),
    (0x9053_11C9, .ins 1 5 6 7 9),
    (0xAC00_001B, .fence 1 0 1 1 3),
    (0xF803_1C01, .free 1 6 7),
    (0xC653_0449, .gather 1 5 6 0 1 2 9),
    (0xC653_4449, .gatherp 1 5 6 0 1 2 9),
    (0xCC53_0049, .get 1 5 6 2 9),
    (0xCC53_0449, .put 1 5 6 2 9),
    (0x7200_0002, .idle),
    (0xC453_1C40, .idsort 1 5 6 7 2),
    (0xC453_1C41, .merge 1 5 6 7 2),
    (0x1E03_0004, .join 6),
    (0x9E53_0000, .jr 1 5 6),
    (0xA053_2401, .ld 1 5 6 2 1 1),
    (0xA853_2081, .lda 1 5 6 2 1 1),
    (0xA453_7401, .ldv 1 5 6 1 1),
    (0x9259_5555, .lhi 1 5 2 87381),
    (0x9E50_0021, .loop 1 5 1),
    (0x8253_1F0E, .min 1 5 6 7 1 1)].all
      (fun e : Nat × Instr => reads e.1 e.2) = true := by decide

theorem test_decode_rows_4 :
    [(0x8253_1F0F, .max 1 5 6 7 1 1),
    (0xE453_1C09, .mcmd 1 5 6 7 9),
    (0xE653_0009, .mfetch 1 5 6 9),
    (0xE053_0009, .mmul 1 5 6 9),
    (0xE053_0409, .mmuls 1 5 6 9),
    (0x6C00_0021, .modeExposed),
    (0x6C00_0001, .modeScoreboard),
    (0xE253_0009, .mrot 1 5 6 9),
    (0x8253_1D02, .mul 1 5 6 7 1),
    (0x8253_1F03, .mulh 1 5 6 7 1 1),
    (0x5050_0002, .next 5),
    (0x1E00_0002, .nop),
    (0x8253_1D01, .sub 1 5 6 7 1),
    (0x8253_1F05, .rem 1 5 6 7 1 1),
    (0x8253_1D07, .or 1 5 6 7 1),
    (0x8853_5555, .orImm 1 5 6 21845),
    (0x8253_1D08, .xor 1 5 6 7 1),
    (0x8A53_5555, .xorImm 1 5 6 21845),
    (0x8253_1D0A, .shl 1 5 6 7 1)].all
      (fun e : Nat × Instr => reads e.1 e.2) = true := by decide

theorem test_decode_rows_5 :
    [(0x8253_1D0B, .shr 1 5 6 7 1),
    (0x8253_1D0C, .shra 1 5 6 7 1),
    (0x8253_1D0D, .rot 1 5 6 7 1),
    (0x8C53_0109, .shlImm 1 5 6 1 9),
    (0x8C53_0149, .shrImm 1 5 6 1 9),
    (0x8C53_0189, .shraImm 1 5 6 1 9),
    (0x8C53_01C9, .rotImm 1 5 6 1 9),
    (0x8253_0112, .popc 1 5 6 1),
    (0x8253_1D73, .sel 1 5 6 7 1 3),
    (0x9653_1C40, .plog 1 5 6 7 2),
    (0x9653_0001, .pmov 1 5 6 0),
    (0x9653_0002, .pcnt 1 5 6),
    (0x9653_0003, .pset 1 5 6),
    (0xAC03_0401, .pref 1 6 1),
    (0xEA0C_1FA0, .qhist 1 6 31 10),
    (0xEAAC_00C1, .qscale 1 5 6 12),
    (0xC050_0000, .rand 1 5),
    (0xC003_0001, .rskip 1 6),
    (0xC003_1C02, .rstrm 1 6 7)].all
      (fun e : Nat × Instr => reads e.1 e.2) = true := by decide

theorem test_decode_rows_6 :
    [(0x6C53_0420, .rep 5 6 1 1),
    (0xF050_0008, .rsys 1 5 1),
    (0xF003_0009, .wsys 1 6 1),
    (0x7200_0001, .rte),
    (0x7203_0000, .trap 6),
    (0xC253_0040, .sample 1 5 6 2),
    (0xC853_0449, .scatter 1 5 6 1 2 9),
    (0xC853_4449, .scatadd 1 5 6 1 2 9),
    (0xCE03_1C40, .send 1 6 7 2),
    (0xD203_1C20, .ship 1 6 7 1),
    (0xDA00_0022, .slot 1 1),
    (0x1E53_1C03, .spawn 5 6 7),
    (0xA253_2401, .st 1 5 6 2 1 1),
    (0xA853_2481, .stl 1 5 6 2 1 1),
    (0xA653_7401, .stv 1 5 6 1 1),
    (0xD813_1C00, .tdef 1 1 6 7),
    (0xD810_0001, .tacq 1 1),
    (0xD810_0002, .trel 1 1),
    (0xD810_0022, .trelFill 1 1)].all
      (fun e : Nat × Instr => reads e.1 e.2) = true := by decide

theorem test_decode_rows_7 :
    [(0xD850_8003, .tstat 1 5 1),
    (0x5053_1C00, .task 5 6 7),
    (0xCA13_0000, .tbind 1 1 6),
    (0xCA10_0001, .tstep 1 1),
    (0xCA03_1C02, .vpub 1 6 7),
    (0xCA03_0003, .vswitch 1 6),
    (0xD603_0000, .waitt 1 6),
    (0xD653_0020, .waittNt 1 5 6),
    (0xD653_0001, .testt 1 5 6),
    (0xD653_0025, .tinfo 1 5 6 1),
    (0xD653_0065, .tinfoResume 1 5 6),
    (0xF603_0080, .tlbi 1 6 0 4),
    (0xB0AC_E390, .vadd 1 5 6 7 3 9),
    (0xB0AC_E321, .vsub 1 5 6 7 3 2),
    (0xB0AC_E322, .vmul 1 5 6 7 3 2),
    (0xB0AC_E323, .vmin 1 5 6 7 3 2),
    (0xB0AC_E324, .vmax 1 5 6 7 3 2),
    (0xB0AC_0325, .vabs 1 5 6 3 2),
    (0xB0AC_0326, .vneg 1 5 6 3 2)].all
      (fun e : Nat × Instr => reads e.1 e.2) = true := by decide

theorem test_decode_rows_8 :
    [(0xB2AC_E301, .vlogic 1 5 6 7 3 1),
    (0xB2AC_E329, .vsh 1 5 6 7 3 2 1),
    (0xB4AC_E321, .vcmp 1 5 6 7 3 2 1),
    (0xB4AC_E328, .vsel 1 5 6 7 3 2),
    (0xB6AC_E000, .vshuf 1 5 6 7),
    (0xB6AC_0321, .vbcast 1 5 6 3 2),
    (0xB6AC_6022, .vext 1 5 6 3 2),
    (0xB6AC_6023, .vins 1 5 6 3 2),
    (0xB8AD_013F, .vcvt 1 5 6 8 0 9 31),
    (0xBAAC_F323, .vfma 1 5 6 7 9 9 3),
    (0xBCAC_E143, .vdot 1 5 6 7 10 3),
    (0xBCAC_E283, .vmaci 1 5 6 7 1 4 3),
    (0xBEAC_2020, .vred 1 5 6 1 2),
    (0xBEAC_0381, .vrcp 1 5 6 3 8),
    (0xBEAC_0382, .vrsq 1 5 6 3 8),
    (0xBEAC_0383, .vexp2 1 5 6 3 8),
    (0xBEAC_0384, .vlog2 1 5 6 3 8),
    (0x1E00_0006, .yield)].all
      (fun e : Nat × Instr => reads e.1 e.2) = true := by decide
/-! ### Words that the spec's instruction reference gives in full -/

theorem test_decode_spec_scalar :
    [(0x0253_1D00, .add 0 5 6 7 1), (0x0453_7FFD, .addImm 0 5 6 0x7FFD), (0x0653_00FF, .andImm 0 5 6 0xFF), (0x0253_1C09, .andn 0 5 6 7 0),
     (0x0A53_00FF, .xorImm 0 5 6 0xFF), (0x0253_1C08, .xor 0 5 6 7 0), (0x0253_1C04, .div 0 5 6 7 0 0), (0x0253_1E0F, .max 0 5 6 7 1 0),
     (0x0253_1D0E, .min 0 5 6 7 0 1), (0x0369_D40E, .min 0 22 19 21 0 0), (0x0E42_8003, .cmpImm 0 4 5 0 0 3),
     (0x1146_93C0, .ins 0 20 13 15 0), (0x1F10_7FA1, .loop 0 17 0x3FD), (0x1E10_8000, .jr 0 1 1), (0x1E02_8004, .join 5),
     (0x1E53_1C03, .spawn 5 6 7), (0x7202_8000, .trap 5)].all
      (fun e : Nat × Instr => reads e.1 e.2) = true := by decide

theorem test_decode_spec_memory :
    [(0x2054_A7FE, .ld 0 5 9 2 1 0x3FE), (0x2855_3201, .lda 0 5 10 3 4 1), (0x2424_F000, .ldv 0 2 9 0 0), (0x2C08_0401, .pref 0 16 1),
     (0x2A55_2001, .amo 0 5 10 2 0 0 0 1), (0x2A64_F200, .amo 0 6 9 7 8 0 0 0), (0x5204_A820, .ship 0 9 10 1),
     (0x5204_A840, .ship 0 9 10 2), (0x760A_8001, .commit 0 21), (0x760A_8002, .decommit 0 21), (0x7606_0160, .tlbi 0 12 1 3)].all
      (fun e : Nat × Instr => reads e.1 e.2) = true := by decide

theorem test_decode_spec_tickets :
    [(0x5603_8003, .detach 0 7), (0x60C4_8400, .mmuls 0 12 9 0), (0x60C4_8001, .mmul 0 12 9 1), (0x62C4_8000, .mrot 0 12 9 0),
     (0x66C4_8000, .mfetch 0 12 9 0), (0x64C2_9800, .mcmd 0 12 5 6 0), (0x4900_88A0, .scatter 0 16 1 2 5 0),
     (0x4900_C8A0, .scatadd 0 16 1 2 5 0), (0x46F0_E4A0, .gatherp 0 15 1 1 1 5 0), (0x4CF6_8020, .get 0 15 13 1 0),
     (0x4D96_0440, .put 0 25 12 2 0), (0x54C4_8081, .copy 0 12 9 4 1), (0x54C4_8480, .shuffle 0 12 9 4 0), (0x5CC2_8080, .coll 0 12 5 0 4 0),
     (0x44E0_9060, .idsort 0 14 1 4 3), (0x44E1_90A1, .merge 0 14 3 4 5), (0x4274_0060, .sample 0 7 8 3), (0x6804_8800, .azero 0 9),
     (0x56A3_8065, .tinfoResume 0 10 7)].all
      (fun e : Nat × Instr => reads e.1 e.2) = true := by decide

theorem test_decode_spec_system :
    [(0x7140_0108, .rsys 0 20 0x021), (0x70B0_0290, .rsys 0 11 0x052), (0x7002_8001, .wsys 0 5 0), (0x7004_8081, .wsys 0 9 0x010),
     (0x7002_8139, .wsys 0 5 0x027), (0x4E05_5040, .send 0 10 20 2), (0x4ED4_8001, .ctrlv 0 1 9), (0x5A00_00C2, .slot 0 6),
     (0x5A00_04A2, .slot 0 37), (0x5053_1C00, .task 5 6 7), (0x5003_8001, .decr 7), (0x50A0_0002, .next 10), (0x4A02_9802, .vpub 0 5 6),
     (0x4A02_8003, .vswitch 0 5), (0x34A2_4682, .vcmp 0 5 1 2 6 8 2), (0x6A06_1F80, .qhist 0 3 31 8), (0x6AAC_00B1, .qscale 0 5 6 11),
     (0x6C22_8420, .rep 2 5 1 1), (0x6CB8_0400, .rep 11 16 1 0), (0x7200_0002, .idle)].all
      (fun e : Nat × Instr => reads e.1 e.2) = true := by decide

/-- Words that R79, R80 and R92 leave without an instruction. -/
theorem test_decode_refused :
    [(0 : IWord), 0x8000_0000, 0x7E00_0000, 0x2E00_0000, 0x5E00_0000, 0x6E00_0000, 0x7A00_0000, 0x7C00_0000, 0x1E00_001F, 0x0253_1C1F,
      0x128C_0000, 0x1E00_8002].all (fun w => !(decodeWord w).isOk) = true := by decide
/-! ### Witnesses: states that meet the hypotheses of the statements, clause by clause

`core3` is a strand of a bobbin core, `tile0` one of a dense sequencer; they are alone, in supervisor mode. -/

def core3 : State := at_ 3 4 id id
def tile0 : State := at_ 0x8000 0 id id

theorem wit_alone : core3.alone = true ∧ core3.portless = true ∧ core3.cur.slot ≠ 11 ∧ core3.cur.part = none ∧
    tile0.alone = true ∧ tile0.portless = true ∧ isDense tile0.cur.cn = true ∧ tile0.me.sup = true := by decide

/-- IllegalMajors: a word of each refused major, and a state for its clause. -/
theorem wit_IllegalMajors : [0x00, 0x3F, 0x17, 0x2F, 0x37, 0x3D, 0x3E].all
    (fun m => fld (m * 2 ^ 25 + 5) 25 6 == m) = true ∧ core3.alone = true ∧ core3.cur.slot ≠ 11 := by decide

/-- DecodeOfEncode: the largest fields of an instruction. -/
theorem wit_DecodeOfEncode : (Instr.add 1 31 31 31 1).wellFormed = true ∧ (Instr.cmp 1 23 31 31 1 1 5).wellFormed = true ∧
    (Instr.extr 1 31 31 1 31 32).wellFormed = true := by decide

/-- A first instruction at reset, as a planned issue and as the issue of its core. -/
def first : State := State.reset.withFetchWord 32 0x0253_1D00
def ready : State := { first with agenda := [] }

theorem wit_StepRunsDecoded : first.powered = true ∧ first.agenda = [.issue 0x8000 0] ∧ (first.strand 0x8000 0).live = true ∧
    (first.strand 0x8000 0).yielded = false ∧ ready.mayIssue 0x8000 0 = true ∧ (first.strand 0x8000 0).rest = [] ∧
    (first.strand 0x8000 0).susp = none ∧ (first.strand 0x8000 0).await = none ∧ (first.strand 0x8000 0).rep = none ∧
    (first.strand 0x8000 0).counted = false ∧ (first.strand 0x8000 0).mid = none ∧ (first.strand 0x8000 0).holds = [] ∧ reads 0x0253_1D00 (.add 0 5 6 7 1) = true := by decide

theorem wit_StepRunsDecoded_fetch : ∃ u, ready.fetchAt 0x8000 0 0x100000 false = (.words [0x0253_1D00], u) ∧
    bundleIllegal [wordUses 0x0253_1D00] (fun r => !isDense 0x8000 && (u.core 0x8000).regs.claim == some 0 && 12 ≤ r) = false ∧
    (u.strand 0x8000 0).blocked [wordUses 0x0253_1D00] = false ∧ (u.core 0x8000).modeWaits = false ∧ (u.strand 0x8000 0).mid = none ∧
    (u.strand 0x8000 0).counted = false := ⟨_, rfl, by decide, by decide, by decide, by decide, by decide⟩

/-- The placed strand with a BAR word that has begun to wait. -/
def begunWord : State := ready.modStrand 0x8000 0 fun t => { t with holds := [(0x100000, .barrier 0 0 none)], fetched := [0x5A03_0000] }

theorem wit_StepRunsDecoded_waits : (begunWord.strand 0x8000 0).holds ≠ [] ∧ (begunWord.strand 0x8000 0).fetched = [0x5A03_0000] ∧
    begunWord.mayIssue 0x8000 0 = true ∧ reads 0x5A03_0000 (.bar 0 6) = true ∧
    bundleIllegal [wordUses 0x5A03_0000] (fun r => !isDense 0x8000 && (begunWord.core 0x8000).regs.claim == some 0 && 12 ≤ r) = false ∧
    (begunWord.strand 0x8000 0).blocked [wordUses 0x5A03_0000] = false := by decide +kernel

def awake : State := { ready with cores := ready.cores.map fun c => (c.1, { c.2 with handlerLast := true, lastP := 10 }) }

theorem wit_StepRunsDecoded_issue : awake.agenda = [] ∧ awake.timed = [] ∧
    (awake.cores.find? fun k => awake.visited ≤ k.1).map (·.1) = some 0x8000 ∧ awake.removed = false ∧
    (awake.core 0x8000).order.head? = some 0 := by decide

theorem wit_MemoryStaysCanonical : first.mem.wf = true ∧ ∃ t, step first = .next t := ⟨by decide, _, rfl⟩

def user3 : State := at_ 3 4 (fun t => { t with sup := false }) id

theorem wit_UserWordsKeepPrivilege : user3.alone = true ∧ user3.cur.slot < 11 ∧ user3.me.sup = false ∧
    (Instr.rstrm 0 5 6).wellFormed = true ∧ ∃ t, exec (.rstrm 0 5 6) user3 = .next t := ⟨by decide, by decide, by decide, by decide, _, rfl⟩

theorem wit_ScalarComparisons : core3.alone = true ∧ (5 : BitVec 3).toNat < 6 := by decide

theorem wit_ScalarDivision : core3.alone = true ∧ core3.me.divFree = 0 ∧
    (at_ 3 4 (fun t => { t with divFree := 1010 }) id).me.divFree ≠ 0 := by decide

theorem wit_FieldsAndPredicates : core3.alone = true ∧ (31 : BitVec 6).toNat + (32 : BitVec 6).toNat + 1 ≤ 64 ∧
    (2 : BitVec 2).toNat ≠ 3 := by decide

theorem wit_BranchesAndLoops : core3.alone = true ∧ core3.cur.slot ≠ 11 ∧
    ((regs2 3 4 6 0x102 7 0).me.getX 6).toNat % 4 ≠ 0 ∧ 2 ^ 56 ≤ ((regs2 3 4 6 0x0100_0000_0000_0000 7 0).me.getX 6).toNat := by decide

/-- REP at 0x100000 over one VADD, on the placed strand. -/
def looping (n : Word) : State :=
  { ((State.reset.withFetchWord 32 0x6C22_8420).hostWrite 0x100004 (leBytes 4 0x30A2_4680)).modStrand 0x8000 0 fun t => t.setX 5 n with
    cur := cursorAt 0x8000 0 0x100000 1 false false none none 0 }

theorem wit_RepStartsPasses : (looping 3).alone = true ∧ isDense (looping 3).cur.cn = true ∧
    ((looping 3).me.getX 5).toNat = 3 ∧ ((looping 0).me.getX 5).toNat = 0 ∧ ((looping 0xFFFF).me.getX 5).toNat < 2 ^ 16 ∧
    ([0x30A2_4680] : List IWord).all repeatable = true ∧ wordB 0x30A2_4680 = false := by decide

theorem wit_RepStartsPasses_body : (looping 3).capture ((looping 3).cur.pc + 4) 1 = .ok [0x30A2_4680] ∧
    (looping 0).capture ((looping 0).cur.pc + 4) 1 = .ok [0x30A2_4680] := ⟨rfl, rfl⟩

def handler3 : State := at_ 3 11 id id

theorem wit_TrapsSuspendTheStrand : core3.alone = true ∧ core3.cur.slot ≠ 11 ∧ handler3.alone = true ∧ handler3.cur.slot = 11 ∧
    handler3.partOf? 3 = some 0 ∧ handler3.part? 0 = some part ∧ part.holds 3 = true ∧ part.status = .running ∧ core3.cur.slot < 11 ∧
    ∃ u, core3.fetchAt 3 4 core3.me.pc core3.me.jumped = (.fault 0x07 0x1000, u) :=
  ⟨by decide, by decide, by decide, by decide, by decide, by decide, by decide, by decide, by decide, _, rfl⟩

/-- A core whose strand 4 is suspended, one with a parked ticket, one with a message for entry 2 of its table. -/
def faulted : State := at_ 3 4 (fun t => { t with susp := some { cause := 0x10, faddr := 9, fpc := 0x1000 } })
  fun c => { c with regs := { c.regs with fhnd := 0x5000 } }
def parked : State := at_ 3 4 id fun c => c.setTicket 63 { c.ticket 63 with
  live := true, st := .pending, parked := true, cause := 0x05, faddr := 7, entryWaits := true, gen := 1 }
def knocked : State :=
  let s := at_ 3 4 id fun c => { c with regs := { c.regs with htab := 0x8000_0000_0000_0100 }, inbox := [
    { target := 0x2_FFFF_0003, srcDev := 0xFFFF, srcCn := 4, payload := [1, 2], arrived := 0 }] }
  { s with mem := s.mem.writeN (scratchKey 3 0x110) (leBytes 8 0xC000_0000_0000_4000) }

theorem wit_EntriesStartTheHandler :
    (faulted.core 3).handlerEmpty = true ∧ faulted.entriesOpen 3 = true ∧
    (faulted.core 3).waitingFault = some (4, { cause := 0x10, faddr := 9, fpc := 0x1000 }) ∧
    (parked.core 3).handlerEmpty = true ∧ parked.entriesOpen 3 = true ∧ (parked.core 3).waitingFault = none ∧
    (parked.core 3).waitingTicket = some 63 ∧
    (knocked.core 3).inbox = [{ target := 0x2_FFFF_0003, srcDev := 0xFFFF, srcCn := 4, payload := [1, 2], arrived := 0 }] ∧
    (knocked.core 3).handlerEmpty = true ∧ knocked.entriesOpen 3 = true ∧ (knocked.core 3).waitingFault = none ∧
    (knocked.core 3).waitingTicket = none ∧
    leNat (knocked.mem.readN (scratchKey 3 (0x100 + 8 * 2)) 8) = 0xC000_0000_0000_4000 := by decide

theorem wit_ReturnFromException : handler3.alone = true ∧ handler3.cur.slot = 11 ∧ handler3.me.sup = true ∧
    (at_ 3 11 id fun c => { c with run := .strand 10 }).myCore.run = .strand 10 := by decide

theorem wit_WordsOutOfPlace : user3.alone = true ∧ user3.cur.slot < 11 ∧ user3.me.sup = false ∧ core3.cur.slot ≠ 11 ∧ core3.cur.slot ≠ 0 ∧
    isDense core3.cur.cn = false ∧
    [Instr.azero 0 5, .acvt 0 5 6 9, .mmul 0 5 6 0, .mrot 0 5 6 0, .mfetch 0 5 6 0, .modeExposed, .qhist 0 3 31 8, .rep 1 5 1 0].all
      (fun i => [0x30, 0x31, 0x33, 0x34, 0x35, 0x36].contains (fld (encode i).toNat 25 6) && i.wellFormed) = true := by decide
def control3 : State := regs2 3 0 6 0x4000 7 9

theorem wit_HelperWords : control3.alone = true ∧ control3.cur.slot = 0 ∧ (control3.me.getX 6).toNat % 4 = 0 ∧
    (control3.me.getX 6).toNat < 2 ^ 56 ∧ control3.myCore.freeHelper = some 1 ∧ control3.releaseWaits 3 0 1 = false ∧
    (∀ i < 11, 1 ≤ i → (control3.myCore.strand i).live = false) ∧ core3.me.sup = true ∧ core3.held = none ∧
    (at_ 3 4 id fun c => { c with inbox := [{ target := 3, srcDev := 0xFFFF, srcCn := 4, payload := [], arrived := 0 }] }).myCore.inbox ≠ [] ∧
    core3.alone = true ∧ 0 < core3.cur.slot ∧ core3.myCore.attached 4 = [] ∧ (∀ n < 64, core3.myCore.freesNow n = false) ∧
    core3.releaseWaits 3 4 4 = false ∧ (at_ 3 11 id fun c => { c with run := .strand 0 }).alone = true ∧
    (at_ 3 11 id fun c => { c with run := .strand 0 }).myCore.run = .strand 0 := by decide

/-- A control strand with one ready task of priority 3 at record offset 0x40. -/
def tasked : State :=
  let s := at_ 3 0 id fun c => { c with runList := c.runList.set 3 [(0x40, 900)] }
  s.setTaskRec 3 0x40 (0x4000 + 9 * 2 ^ 64 + 7 * 2 ^ 128 + 3 * 2 ^ 176 + 2 * 2 ^ 181)

theorem wit_NextTakesTheOldestTask : tasked.alone = true ∧ tasked.cur.slot = 0 ∧ tasked.mem.wf = true ∧
    tasked.myCore.noHelpers = true ∧ tasked.myCore.attached 0 = [] ∧ (∀ n < 64, tasked.myCore.freesNow n = false) ∧
    tasked.agingDue 3 = false ∧ tasked.myCore.topLevel = some 3 ∧ tasked.myCore.level 3 = (0x40, 900) :: [] := by decide

theorem wit_TaskAndDecrement :
    (at_ 3 4 (fun t => { t with holds := [(0x1000, .replied 0x40_0003 none)] }) id).held = some (.replied 0x40_0003 none) ∧
    (at_ 3 4 (fun t => { t with holds := [(0x1000, .replied 0x40_0003 none)] }) id).alone = true ∧
    (regs2 3 4 6 0x7_FFE0_0003 7 0).alone = true ∧ (regs2 3 4 6 0x7_FFE0_0003 7 0).mine 3 = true ∧
    ((regs2 3 4 6 0x7_FFE0_0003 7 0).me.getX 6).toNat / 2 ^ 16 % 2 ^ 16 % 32 = 0 ∧
    (regs2 3 4 6 0x7_FFE0_0003 7 0).releaseWaits 3 4 4 = false := by decide

theorem wit_ModesAndContexts : tile0.alone = true ∧ isDense tile0.cur.cn = true ∧ tile0.modeReady = true ∧ tile0.me.pend = [] ∧
    control3.cur.slot = 0 ∧ control3.me.sup = true ∧ (∀ i < 12, 0 < i → (control3.myCore.strand i).live = false) ∧
    control3.myCore.regs.ctxbase.toNat % 4096 = 0 ∧ control3.atRest 3 = true ∧
    control3.myCore.tickets.toList.any (·.live) = false := by decide

theorem wit_VectorIntegerLanes : core3.alone = true ∧ core3.portless = true ∧ (7 : BitVec 4).toNat < 8 ∧ (3 : BitVec 4).toNat < 4 := by decide

theorem wit_VectorMoves : core3.alone = true ∧ core3.portless = true ∧ (12 : BitVec 4).toNat ≤ 12 ∧
    (15 : BitVec 4).toNat < lanesOf (12 : BitVec 4).toNat ∧ (1 : BitVec 4).toNat < lanesOf (3 : BitVec 4).toNat := by decide

theorem wit_VectorIntegerSums : core3.alone = true ∧ core3.portless = true ∧ (5 : BitVec 4).toNat < 8 ∧ (5 : BitVec 4).toNat % 4 < 2 ∧
    (5 : BitVec 3).toNat < 6 ∧ (23 : BitVec 5).toNat < 24 ∧ flagsTrap core3.me.fctl.toNat fISAT = false := by decide

theorem wit_VectorFloatLanes : core3.alone = true ∧ core3.portless = true ∧ 8 ≤ (10 : BitVec 4).toNat ∧ (10 : BitVec 4).toNat ≤ 10 ∧
    core3.me.fctl.toNat / 2 ^ 8 % 2 ^ 6 = 0 ∧ (5 : BitVec 3).toNat < 6 ∧ (2 : BitVec 4).toNat < 3 := by decide

theorem wit_VectorConversionsAndDots : core3.alone = true ∧ core3.portless = true ∧ core3.me.fctl.toNat / 2 ^ 8 % 2 ^ 6 = 0 ∧
    (13 : BitVec 4).toNat ≤ 13 ∧ cvtPair 13 8 = true ∧ cvtPair 0 7 = true ∧ (8 : BitVec 4) ≠ 12 ∧ 9 ≤ (13 : BitVec 4).toNat := by decide

/-- 1.0 in every lane of v1 and a tiny number in lane 0 of v2, with every trap enabled. -/
def inexact : State := at_ 3 4 (fun t => ({ t with fctl := 0x3F00 }.setV 1 0x3F8000003F8000003F8000003F800000).setV 2 0x00800000) id

theorem wit_EnabledFlagTraps : inexact.alone = true ∧ inexact.cur.slot ≠ 11 ∧ inexact.portless = true ∧ 8 ≤ (8 : BitVec 4).toNat ∧
    (List.range 4).foldl (fun acc j => if (inexact.me.getP 31).getLsbD j then acc ||| (fAdd 8 (inexact.me.fctl.toNat % 4)
      (inexact.me.fctl.getLsbD 2) ((inexact.me.getV 1).extractLsb' (32 * j) 32).toNat
      ((inexact.me.getV 2).extractLsb' (32 * j) 32).toNat).2 else acc) 0 = fNX ∧
    flagsTrap inexact.me.fctl.toNat fNX = true := by decide

/-- A strand of core 40 that holds the claim, with a value at its east port and a number of values at its neighbour's. -/
def ported (mine : List QEntry) (other : Nat) : State :=
  let s := at_ 40 4 id fun c => { c with
    regs := { c.regs with claim := some 4, qhnd := 0x4000 }, queues := c.queues.setIfInBounds 1 mine }
  match neighbour 40 1 with
  | none => s
  | some n => s.modCore n fun c => { c with
      queues := c.queues.setIfInBounds (opposite 1) (List.replicate other { tag := false, val := 5 }) }

theorem wit_NeighbourPorts : (ported [{ tag := false, val := 5 }] 0).alone = true ∧ isDense 40 = false ∧
    (ported [{ tag := false, val := 5 }] 0).myCore.regs.claim = some 4 ∧ (neighbour 40 1).isSome = true ∧
    (ported [{ tag := false, val := 5 }] 0).myCore.queue 1 = [{ tag := false, val := 5 }] ∧ (ported [] 0).myCore.queue 1 = [] ∧
    ((ported [] 8).core ((neighbour 40 1).getD 0)).queue (opposite 1) = List.replicate 8 { tag := false, val := 5 } ∧
    ((ported [] 7).core ((neighbour 40 1).getD 0)).queue (opposite 1) = List.replicate 7 { tag := false, val := 5 } ∧
    (ported [{ tag := true, val := 5 }] 0).myCore.queue 1 = [{ tag := true, val := 5 }] ∧
    (ported [] 0).myCore.regs.qhnd.toNat % 2 ^ 56 ≠ 0 ∧ (ported [] 0).myCore.regs.qhnd.toNat % 4 = 0 := by decide

theorem wit_BundlesAndExposedWrites : (core3.strand 3 4).susp = none ∧ (core3.strand 3 4).mid = none ∧ (core3.strand 3 4).pend = [] ∧
    (core3.core 3).regs.exposed = false ∧ reads 0x8253_1C07 (.or 1 5 6 7 0) = true ∧ reads 0x0263_1C07 (.or 0 6 6 7 0) = true ∧
    (at_ 0x8000 0 id fun c => { c with regs := { c.regs with exposed := true } }).myCore.regs.exposed = true ∧
    tile0.cur.multi = false ∧ tile0.cur.spread = false ∧ tile0.cur.src = none ∧ tile0.cur.target = none ∧ tile0.cur.len = 1 ∧ tile0.cur.slot < 12 ∧
    tile0.me.susp = none := by decide

theorem wit_RskipAdvances : core3.alone = true ∧ (regs2 3 4 6 0 7 0).me.getX 6 = 0 := by decide

/-- A histogram with three values of exponent 0 and two of exponent 31. -/
def counted : State := at_ 0x8000 0 id fun c => { c with hist := (c.hist.set 32 3).set 63 2 }

theorem wit_HistogramWords : counted.alone = true ∧ isDense counted.cur.cn = true ∧
    (∀ i < 64, counted.myCore.hist[i]?.getD 0 < 2 ^ 32) ∧ ((List.range 64).map fun i => tile0.myCore.hist[i]?.getD 0).sum = 0 ∧
    ((List.range 64).map fun i => counted.myCore.hist[i]?.getD 0).sum = 5 ∧ (63 : Nat) < 64 ∧
    5 * ((counted.me.getX 6).toNat % 256 + 1) ≤ 256 * ((List.range 33).map fun i => counted.myCore.hist[i]?.getD 0).sum ∧
    (∀ j < 32, 256 * ((List.range (j + 1)).map fun i => counted.myCore.hist[i]?.getD 0).sum < 5) := by decide

theorem wit_SystemRegisters : core3.alone = true ∧ core3.cur.slot ≠ 11 ∧ core3.cur.part = none ∧ core3.me.sup = true ∧
    user3.me.sup = false ∧ user3.alone = true ∧ 0x070 < (0x071 : BitVec 12).toNat ∧ isDense core3.cur.cn = false ∧
    core3.myCore.regs.claim = none ∧
    (at_ 3 4 id fun c => { c with regs := { c.regs with claim := some 4 } }).myCore.regs.claim = some 4 ∧
    (at_ 3 4 id fun c => { c with regs := { c.regs with claim := some 5 } }).myCore.regs.claim = some 5 ∧
    (at_ 3 4 id fun c => { c with phase := some { dom := 0, f := 0, b := 984, nslot := 64, owned := [] } }).cycle = 984 + 16 := by decide
/-- The placed strand, in an address space that maps physical address 0, the scratchpad window at 2^36 and the multicast window
at 2^37, with two registers set. -/
def mapped (r : Nat) (v : Word) (f : Core → Core) : State :=
  let s := State.reset.withFetchWord 32 0
  let leaf (region : Nat) : Nat := placedLeaf + 0xFFFF0_0000 * 2 ^ 8 + region * 2 ^ 60
  let s1 := (s.hostWrite (placedTable + 8) (leBytes 8 (leaf 0xC))).hostWrite (placedTable + 16) (leBytes 8 (leaf 0xD))
  { (s1.modStrand 0x8000 0 fun t => (t.setX r v).setX 7 0x55).modCore 0x8000 f with
    agenda := [], cycle := 1000, cur := cursorAt 0x8000 0 0x100000 1 false false none none 0 }

/-- A translation that succeeds with a target and a state of this kind. -/
def finds (x : Except Nat Target × State) (p : Target → State → Bool) : Bool :=
  match x with
  | (.ok g, t) => p g t
  | _ => false

/-- A plain memory target: no alias window, no multicast, no device page. -/
def plain (g : Target) : Bool := g.win == 0 && !g.isMcast && match g.home with
  | .dev _ _ => false
  | _ => true

/-- An open exchange phase with 64 slots, every slot owned. -/
def phase : Phase := { dom := 0, f := 0, b := 1000, nslot := 64, owned := leBytes 8 (2 ^ 64 - 1) }
/-- The mapped strand with that phase, armed for slot 63 or not. -/
def timed (r : Nat) (v : Word) (a : Option Nat) : State :=
  (mapped r v fun c => { c with phase := some phase }).modMe fun t => { t with arm := a }

/-- A barrier domain of the first two dense sequencers of die 0. -/
def domain : Domain :=
  { part := 0, clusters := 0, cores := 0, dense := 3, sched := false, paired := false, pair := 0, nslot := 0, nphase := 0, count := 0
    arrived := [], votes := [] }

theorem wit_ScalarLoads : (regs2 3 4 6 0x100 7 0).alone = true ∧ (6 : BitVec 3).toNat < 7 ∧
    finds ((regs2 3 4 6 0x100 7 0).resolve ((regs2 3 4 6 0x100 7 0).access true false) 0x100 8) (fun g _ => plain g) = true ∧
    (mapped 6 0x100200 id).alone = true ∧
    finds ((mapped 6 0x100200 id).resolve ((mapped 6 0x100200 id).access true false) 0x100200 8) (fun g _ => plain g) = true := by decide +kernel

/-- A strand in user mode whose core locks its handler table at offset 0x100. -/
def locked : State := (at_ 3 4 (fun t => { t.setX 6 0x100 with sup := false })
  fun c => { c with regs := { c.regs with htab := 0x8000_0000_0000_0100 } })

theorem wit_ScalarStores : (regs2 3 4 6 0x100 7 0).alone = true ∧ (regs2 3 4 6 0x100 7 0).cur.slot ≠ 11 ∧ (6 : BitVec 3).toNat < 7 ∧
    finds ((regs2 3 4 6 0x100 7 0).resolve ((regs2 3 4 6 0x100 7 0).access false true) 0x100 8) (fun g t =>
      plain g && !t.stranger g && !t.lockRefuses true g.home 8) = true ∧
    (timed 6 0x10_0003_0040 (some 63)).alone = true ∧
    finds ((timed 6 0x10_0003_0040 (some 63)).resolve ((timed 6 0x10_0003_0040 (some 63)).access false true) 0x10_0030_0040 8) (fun g t =>
      plain g && !t.stranger g && g.exchanged 0x8000 && t.leave 1 == .armed 63 1079) = true ∧
    finds ((timed 6 0 none).resolve ((timed 6 0 none).access false true) 0x10_0030_0040 8) (fun g t =>
      plain g && !t.stranger g && g.exchanged 0x8000 && t.leave 1 != .free) = true ∧
    locked.alone = true ∧ finds (locked.resolve (locked.access false true) 0x100 8) (fun g t =>
      plain g && t.lockRefuses locked.me.sup g.home 8 && !g.exchanged 3) = true := by decide +kernel

/-- The mapped strand with the barrier domain 0 of its die loaded, or none. -/
def mcast (ds : List (Nat × Domain)) : State := { mapped 6 0x28_0000_0100 id with doms := ds }

theorem wit_ScalarStores_multicast : (mcast [(0, domain)]).alone = true ∧ (mcast [(0, domain)]).myCore.phase = none ∧
    finds ((mcast [(0, domain)]).resolve ((mcast [(0, domain)]).access false true) 0x28_0000_0100 8) (fun g t =>
      g.win == 0 && g.isMcast && g.home == .mcast 0 0 0x100 && !t.stranger g) = true ∧
    finds ((mcast []).resolve ((mcast []).access false true) 0x28_0000_0100 8) (fun g t => g.win == 0 && t.stranger g) = true := by decide +kernel

theorem wit_AtomicsAreSent : (regs2 3 4 6 0x100 7 0).alone = true ∧ (mapped 6 0x100200 id).alone = true ∧
    (mapped 6 0x100200 id).cur.slot ≠ 11 ∧
    finds ((mapped 6 0x100200 id).resolve ((mapped 6 0x100200 id).access true true) 0x100200 16) (fun g t =>
      plain g && !t.lockRefuses true g.home 16) = true := by decide +kernel

theorem wit_VectorLoadsAndStores : (regs2 3 4 6 0x100 7 0).alone = true ∧ (regs2 3 4 6 0x100 7 0).portless = true ∧
    finds ((regs2 3 4 6 0x100 7 0).resolve ((regs2 3 4 6 0x100 7 0).access true false) 0x100 16) (fun g _ =>
      plain g && 0x100 % windowBytes g.win == 0) = true ∧
    finds ((regs2 3 4 6 0x20100 7 0).resolve ((regs2 3 4 6 0x20100 7 0).access false true) 0x20100 16) (fun g t =>
      g.win == 2 && !g.isMcast && 0x20100 % windowBytes g.win == 0 && !t.stranger g &&
        !t.lockRefuses true g.home (windowStore g.win (t.me.getV 1)).1.length && !g.exchanged 3 &&
        !flagsTrap t.me.fctl.toNat (windowStore g.win (t.me.getV 1)).2) = true := by decide +kernel

theorem wit_AccessFaults : core3.alone = true ∧ core3.portless = true ∧ (regs2 3 4 6 0x101 7 0).alone = true ∧
    ((regs2 3 4 6 0x101 7 0).me.getX 6).toNat % 4 ≠ 0 ∧ (0x7FFFF : Word).toNat < 0x80000 ∧ 2 ^ 56 ≤ (0x0100_0000_0000_0000 : Word).toNat ∧
    finds ((mapped 6 0x80_0000_0000 id).resolve ((mapped 6 0x80_0000_0000 id).access true false) 0x80_0000_0000 8) (fun _ _ => true) = false := by
  decide +kernel

/-- A request of strand 4 of core 3 to its scratchpad, with the register that waits for it. -/
def asked (op : ReqOp) : State :=
  let s := at_ 3 4 (fun t => { t with pend := [{ reg := .x 5, rid := 7, val := none, turns := none }] }) id
  { s with net := [{ s.wordRequest (.scratch 3 0xFFF8) op 0xFFF8 none none (some 1000) with rid := 7 }] }

theorem wit_AccessesAtHomes : [ReqOp.load 8 0 3 0, .load 16 0 7 0, .store [1, 2, 3, 4, 5, 6, 7, 8] 0 false, .amo 8 8 (2 ^ 64 - 1), .amo 1 0 255,
      .cas 8 0 9].all (fun op =>
    let s := asked op
    s.canPerform 0 && (s.net.map (·.home) == [.scratch 3 0xFFF8]) && !s.quarantined 3 && s.mem.wf &&
      (s.strand 3 4).pend == [{ reg := .x 5, rid := 7, val := none, turns := none }]) = true := by decide +kernel

/-- The same request of a user-mode strand, to a scratchpad whose locked handler table ends at its top. -/
def refused : State :=
  let s := asked (.store [1, 2, 3, 4, 5, 6, 7, 8] 0 false)
  { s.modCore 3 fun c => { c with regs := { c.regs with htab := 0x8000_0000_0000_FF80 } } with net := s.net.map fun r => { r with sup := false } }

theorem wit_AccessesAtHomes_locked : refused.canPerform 0 = true ∧
    refused.net.map (fun r => (refused.lockRefuses r.sup r.home 8, r.slot, r.part)) = [(true, 4, 0)] ∧ (refused.part 0).status = .running ∧
    (refused.strand 3 4).live = true ∧ (refused.strand 3 4).inEntry = false := by decide +kernel

theorem wit_FencesAndCacheWords : core3.alone = true ∧ core3.releaseWaits 3 4 5 = false ∧ core3.myCore.ticketsOf 4 (fun _ => false) = false ∧
    core3.loadsWait 3 4 = false ∧ core3.me.sup = true ∧ core3.held = none ∧ core3.translating 4 core3.nextRid = false ∧
    (mapped 6 0x100200 id).alone = true ∧
    finds ((regs2 3 4 6 0x10100 7 0).resolve ((regs2 3 4 6 0x10100 7 0).access true false) 0x10100 1) (fun g _ => g.win == 1) = true ∧
    finds ((mapped 6 0x100200 id).resolve ((mapped 6 0x100200 id).access true false) 0x100200 1) (fun g _ => g.win == 0 && match g.home with
      | .line .. => true
      | _ => false) = true ∧
    finds ((mapped 6 0x100200 id).resolve ((mapped 6 0x100200 id).access false true) 0x100200 8) (fun g _ => decide (g.region ≤ 1)) = true ∧
    finds ((regs2 3 4 6 0x100 7 0).resolve ((regs2 3 4 6 0x100 7 0).access true false) 0x100 1) (fun g _ => g.home == .scratch 3 0x100) = true ∧
    finds ((mapped 6 0 id).resolve ((mapped 6 0 id).access true false) 0x80_0000_0000 1) (fun _ _ => true) = false := by decide +kernel
/-- Four tiles: t1 and t2 READY, t3 and t4 EMPTY, t5 FILLING by software. -/
def tiles (c : Core) : Core :=
  let t (st : TileState) (base bytes : Nat) : Tile := { readers := 0, st := st, bytes := bytes, base := base }
  ((((c.setTile 1 (t .ready 0x1000 4096)).setTile 2 (t .ready 0x2000 4096)).setTile 3 (t .empty 0x3000 8192)).setTile 4
    (t .empty 0x5000 8192)).setTile 5 (t .filling 0x7000 8192)

/-- A strand with those tiles, the bytes at scratchpad offset 0x400, and their address in s6. -/
def holding (cn slot : Nat) (bs : List Byte) (f : Core → Core) : State :=
  let s := at_ cn slot (fun t => (t.setX 6 0x400).setX 7 0x8000) fun c => f (tiles c)
  { s with mem := s.mem.writeN (scratchKey cn 0x400) bs }

/-- What `State.canIssue` asks, as a test. -/
def issuable (t : State) (n : Nat) (dst : Option Nat) (srcs : List Nat) (drain : Bool) : Bool :=
  t.myCore.freeSlot == some n && !t.ticketsHeld && (match dst with
    | none => true
    | some j => !srcs.contains j && (t.myCore.tile j).st == .empty) &&
  srcs.all fun j => (t.myCore.tile j).st == .ready && (!drain || (t.myCore.tile j).readers == 0)

theorem canIssue_of_issuable {t : State} {n : Nat} {dst : Option Nat} {srcs : List Nat} {drain : Bool}
    (h : issuable t n dst srcs drain = true) : t.canIssue n dst srcs drain := by
  simp only [issuable, Bool.and_eq_true, beq_iff_eq, Bool.not_eq_true', List.all_eq_true, Bool.or_eq_true] at h
  obtain ⟨⟨⟨h1, h2⟩, h3⟩, h4⟩ := h
  refine ⟨h1, h2, fun j hj => ?_, fun j hj => ⟨(h4 j hj).1, fun hd => ?_⟩⟩
  · subst hj; simpa using h3
  · simpa [hd] using (h4 j hj).2

/-- The bytes that a strand reads. -/
def readsBytes (x : Except Stop (List Byte) × State) (p : List Byte → State → Bool) : Bool :=
  match x with
  | (.ok bs, t) => p bs t
  | _ => false

theorem wit_TicketsAreIssued_copies : (holding 3 4 [] id).alone = true ∧ ((holding 3 4 [] id).me.getX 6).toNat % 16 = 0 ∧
    issuable (holding 3 4 [] id) 0 (some 3) [] false = true ∧ issuable (holding 3 4 [] id) 0 none [1] true = true ∧
    (holding 3 4 [] id).mcastTest false true 0x400 = none ∧ (holding 3 4 [] id).myCore.phase = none ∧
    (let s := holding 3 4 (leBytes 8 0x100000 ++ leBytes 8 0x200000 ++ leBytes 8 4096) id;
      readsBytes (s.readStrand 0x400 32) fun bs t => leAt bs 16 8 == 4096 && leAt bs 24 8 == 0 && (t.mcastTest true false (wordAt bs 0)).isNone &&
        (t.mcastTest false true (wordAt bs 8)).isNone && issuable t 0 none [] false) = true ∧
    (let s := holding 3 4 (leBytes 8 0x100000 ++ leBytes 8 0 ++ leBytes 8 4096 ++ leBytes 8 1) id;
      readsBytes (s.readStrand 0x400 32) fun bs t => leAt bs 24 8 == 1 && leAt bs 16 8 ≤ 8192 && (t.mcastTest true false (wordAt bs 0)).isNone &&
        issuable t 0 (some 3) [] false) = true ∧
    (let s := holding 3 4 (leBytes 8 0 ++ leBytes 8 0x100000 ++ leBytes 8 4096 ++ leBytes 8 2) id;
      readsBytes (s.readStrand 0x400 32) fun bs t => leAt bs 24 8 == 2 && leAt bs 16 8 ≤ 4096 && (t.mcastTest false true (wordAt bs 8)).isNone &&
        issuable t 0 none [1] false) = true ∧
    (let s := holding 3 4 ([1, 8, 0, 0] ++ leBytes 4 4 ++ leBytes 4 0x800 ++ leBytes 4 0) id;
      readsBytes (s.readStrand 0x400 16) fun bs t => leAt bs 1 1 == 8 && leAt bs 4 4 == 4 && leAt bs 8 4 == 0x800 && leAt bs 2 2 == 0 &&
        leAt bs 12 4 == 0 && issuable t 0 (some 3) [1] false) = true := by decide +kernel

/-- A dense sequencer whose domain 0 is loaded, with tb1 bound in a mode. -/
def bound (mode : Nat) (holds : List (Addr × Hold)) : State :=
  let q : Binding := { desc := leBytes 8 0x100000 ++ leBytes 8 64 ++ leBytes 8 (2 + 4096 * mode) ++ List.replicate 24 0, addr := 0x400, sel := 0, ver := 0 }
  let s := holding 0x8000 4 [] fun c => { c with tslots := c.tslots.setIfInBounds 1 (some q) }
  { s.modMe fun t => { t with holds := holds, x := t.x.setIfInBounds 6 0 } with doms := [(0, domain)] }

/-- The home of the STEP word of tb1 is the strand's own scratchpad. -/
def stepAt (s : State) (cn : Nat) : Bool :=
  match (s.myCore.binding 1).map s.stepHome with
  | some (.ok h, _) => h == .scratch cn 0x418
  | _ => false

theorem wit_TicketsAreIssued_tables : (bound 0 []).alone = true ∧ ((bound 0 []).myCore.binding 1).map (·.mode) = some 0 ∧
    ((bound 0 []).myCore.binding 1).map (·.hmode) = some false ∧ issuable (bound 0 []) 0 (some 3) [1] false = true ∧
    issuable (bound 0 []) 0 none [1] false = true ∧ issuable (bound 0 []) 0 (some 3) [1, 2] false = true ∧
    issuable (bound 0 []) 0 none [1, 2] false = true ∧
    ((bound 1 [(0x1000, .tilesGranted none [1, 2] 0x400 9)]).myCore.binding 1).map (·.mode) = some 1 ∧
    (bound 1 [(0x1000, .tilesGranted none [1, 2] 0x400 9)]).held = some (.tilesGranted none [1, 2] 0x400 9) ∧
    (bound 1 [(0x1000, .tilesGranted none [1, 2] 0x400 9)]).myCore.freeSlot = some 0 ∧
    (bound 1 [(0x1000, .tilesGranted none [1, 2] 0x400 9)]).ticketsHeld = false ∧ (bound 1 []).held.bind Hold.taken = none ∧
    issuable (bound 1 []) 0 (some 3) [1] false = true ∧ stepAt (bound 1 []) 0x8000 = true ∧
    ((bound 0 []).instanceOf 0 0).any (fun e => e.1 == dieOf 0x8000 && e.2.2.has e.1 0x8000) = true ∧
    issuable (bound 0 []) 0 (some 4) [1] false = true ∧
    ((bound 0 []).me.getX 6).toNat / 2 ^ 15 = 0 ∧ ((bound 0 []).myCore.tile 1).bytes % 512 = 0 ∧
    issuable (bound 0 []) 0 none [1] true = true ∧ issuable (bound 0 []) 0 (some 3) [] false = true := by decide +kernel

/-- A matrix command over 128 rows of 32 e4m3 elements, from a tile or from the operand store, with the other fields zero. -/
def product (src mdata : Nat) : List Byte :=
  leBytes 4 (11 + 11 * 16 + src * 256 + src * 1024) ++ leBytes 2 1 ++ leBytes 2 1 ++ leBytes 4 32 ++ [63, 1, 2, 0] ++ leBytes 8 0 ++
    leBytes 8 0 ++ leBytes 4 32 ++ leBytes 4 32 ++ leBytes 8 mdata ++ leBytes 8 0 ++ leBytes 8 0
/-- A row fetch of one row of 16 bytes. -/
def fetch : List Byte := leBytes 8 0x100000 ++ leBytes 4 16 ++ leBytes 4 1 ++ leBytes 4 0x1FFFF0 ++ leBytes 4 0 ++ leBytes 4 0 ++ leBytes 4 0

theorem wit_TicketsAreIssued_matrix : (holding 0x8000 4 (product 0 0) id).alone = true ∧ isDense 0x8000 = true ∧
    (readsBytes ((holding 0x8000 4 (product 0 0) id).readStrand 0x400 64) fun bs t => ((matCmd bs).check .dense 0).isNone &&
      ((matCmd bs).tileShort .dense fun j => (t.myCore.tile j).bytes).isNone && issuable t 0 none [1, 2] true) = true ∧
    (readsBytes ((holding 0x8000 4 (product 1 0x100000) id).readStrand 0x400 64) fun bs t => ((matCmd bs).check .sparse 0).isNone &&
      ((matCmd bs).tileShort .sparse fun j => (t.myCore.tile j).bytes).isNone && issuable t 0 none [] true) = true ∧
    (readsBytes ((holding 0x8000 4 (product 1 0) id).readStrand 0x400 64) fun bs t => ((matCmd bs).check .rot 0).isNone &&
      ((matCmd bs).tileShort .rot fun j => (t.myCore.tile j).bytes).isNone && issuable t 0 none [] true && t.myCore.mrotLost == 0 &&
      (rotMembers 0x8000 (matCmd bs).ctl).contains 0x8000 && (rotMembers 0x8000 (matCmd bs).ctl).all (t.partFor 0x8000).holds) = true ∧
    (readsBytes ((holding 0x8000 4 fetch id).readStrand 0x400 32) fun bs t => ((fetchCmd bs).check 0).isNone && issuable t 0 none [] false) = true ∧
    (let s := holding 3 4 (leBytes 8 5 ++ product 1 0) fun c => c.setStrand 4 ((c.strand 4).setX 7 0x8000);
      (s.partFor 3).holds 0x8000 && readsBytes (s.readStrand 0x400 72) fun bs t => (mcmdCheck bs 0).isNone && issuable t 0 none [] false) = true := by
  decide +kernel
/-- A strand whose s6 names slot 63, with a ticket there. -/
def waiting (x : Ticket → Ticket) : State := at_ 3 0 (fun t => t.setX 6 (1023 * 64 + 63)) fun c =>
  c.setTicket 63 (x { c.ticket 63 with live := true, gen := 1023, st := .pending, owner := 0 })

theorem wit_TicketsAreObserved : (waiting id).alone = true ∧ (waiting id).cur.slot ≠ 11 ∧ (waiting id).held = none ∧ (waiting id).me.sup = true ∧
    (((waiting fun x => { x with gen := 5 }).myCore.ticket 63).gen ≠ 1023) ∧
    ((waiting id).myCore.ticket 63).live = true ∧ ((waiting id).myCore.ticket 63).gen = 1023 ∧ ((waiting id).myCore.ticket 63).st = .pending ∧
    ((waiting fun x => { x with running := true }).myCore.ticket 63).running = true ∧
    ((waiting fun x => { x with running := true }).myCore.ticket 63).collDomain = none ∧
    ((waiting fun x => { x with st := .faulted, cause := 7 }).myCore.ticket 63).st = .faulted ∧
    ((waiting fun x => { x with st := .faulted, cause := 7 }).myCore.ticket 63).cause ≠ 0 ∧
    ((waiting fun x => { x with st := .done }).myCore.ticket 63).st = .done ∧
    (∀ j < 64, j ≠ 63 → (waiting fun x => { x with st := .done }).myCore.freesNow j = false) ∧
    (waiting fun x => { x with st := .done }).myCore.awaits 63 1023 = false ∧
    ((waiting fun x => { x with parked := true, cause := 5 }).myCore.ticket 63).parked = true ∧
    (waiting id).cur.slot = 0 ∧ (∀ i < 12, ((waiting id).strand 3 i).holds = []) := by decide +kernel

theorem wit_TileWords : (holding 3 4 [] id).alone = true ∧ (holding 3 4 [] id).cur.slot ≠ 11 ∧
    ((holding 3 4 [] id).myCore.tile 3).st = .empty ∧ ((holding 3 4 [] id).myCore.tile 1).st = .ready ∧
    ((holding 3 4 [] id).myCore.tile 5).st = .filling ∧ (holding 3 4 [] id).myCore.engineFills 5 = false := by decide

/-- A valid table descriptor. -/
def descriptor : List Byte :=
  leBytes 8 0x100000 ++ leBytes 8 64 ++ leBytes 8 (3 + 8 * 256) ++ List.replicate 40 0

/-- A control strand with holds, the descriptor at 0x400 and its address in s6. -/
def table (h : List (Addr × Hold)) (follow : Bool) : State :=
  let q : Binding := { desc := bindCopy descriptor, addr := 0x400, sel := 0, ver := 0 }
  let s := holding 0x8000 0 descriptor fun c => { c with tslots := c.tslots.setIfInBounds 7 (some q) }
  let s1 := s.modMe fun t => { t with holds := h }
  { s1 with parts := [(0, { part with vsel := { sel := 0, follow := follow, ver := 0 }, follow := 0x400 })] }

theorem wit_TablesAndVersions : (table [] false).alone = true ∧ (table [] false).cur.slot ≠ 11 ∧ (table [] false).held = none ∧
    ((table [] false).modMe fun t => t.setX 6 0).me.getX 6 = 0 ∧
    (readsBytes ((table [] false).readStrand 0x400 64) fun bs _ => descValid bs (table [] false).srcPart.vsel.follow) = true ∧
    ((table [] false).myCore.binding 7).map (·.hmode) = some false ∧
    (table [(0x1000, .replied 0 none)] false).held = some (.replied 0 none) ∧ flagsTrap (table [] false).me.fctl.toNat 0 = false ∧
    (table [] false).myCore.binding 6 = none ∧
    finds ((table [] false).resolve ((table [] false).access true true) 0x400 32) (fun g _ =>
      g.win == 0 && g.home == .scratch 0x8000 0x400) = true ∧
    (table [] false).releaseWaits 0x8000 0 4 = false ∧ (table [] false).cur.slot = 0 ∧ (table [] true).srcPart.vsel.follow = true := by decide +kernel

/-- A dense sequencer with identifiers in t1 and t2, tiles t3 and t4 in software fills, and a descriptor for ACVT at 0x400. -/
def sorting : State :=
  let ids (l : List Nat) : List Byte := l.flatMap (leBytes 8)
  let s := at_ 0x8000 4 (fun t => (t.setX 6 0x400).setX 7 0x0100) fun c =>
    let t (st : TileState) (base bytes : Nat) : Tile := { readers := 0, st := st, bytes := bytes, base := base }
    (((c.setTile 1 (t .ready 0x1000 16)).setTile 2 (t .ready 0x2000 16)).setTile 3 (t .filling 0x3000 256)).setTile 4 (t .filling 0x4000 256)
  let m := (s.mem.writeN (scratchKey 0x8000 0x1000) (ids [7, 5])).writeN (scratchKey 0x8000 0x2000) (ids [6, 7])
  { s with mem := m.writeN (scratchKey 0x8000 0x400) ([63, 127] ++ leBytes 2 1 ++ leBytes 4 0x3F800000 ++ leBytes 8 0) }

theorem wit_TileResults : sorting.alone = true ∧ sorting.net = [] ∧ sorting.ownQuiet = true ∧ sorting.me.sup = true ∧
    (sorting.myCore.tile 1).st = .ready ∧ (sorting.myCore.tile 2).st = .ready ∧ (sorting.myCore.tile 3).st = .filling ∧
    (sorting.myCore.tile 4).st = .filling ∧ sorting.myCore.engineFills 3 = false ∧ sorting.myCore.engineFills 4 = false ∧
    flagsTrap sorting.me.fctl.toNat fORDV = false ∧ fctlOrdv sorting.me.fctl.toNat = false ∧ isDense 0x8000 = true ∧
    (sorting.me.getX 7).toNat / 2 ^ 6 % 4 = 0 ∧ 0 < (sorting.me.getX 7).toNat / 2 ^ 8 ∧ sorting.arrayQueue 0x8000 = [] ∧
    (match sorting.scalarTarget false true 0x400 8 with
      | (.ok g, _) => !g.isMcast && !sorting.lockRefuses true g.home 8 && g.home == .scratch 0x8000 0x400
      | _ => false) = true ∧
    (sorting.modMe fun t => { t with holds := [(0x1000, .sample 0)] }).held = some (.sample 0) ∧
    flagsTrap sorting.me.fctl.toNat fNV = false ∧
    (readsBytes (sorting.readStrand 0x400 16) fun bs u => u.ownQuiet && leAt bs 0 1 == 63 && leAt bs 2 2 == 1 && leAt bs 1 1 + leAt bs 2 2 == 128 &&
      leAt bs 4 4 / 2 ^ 23 == 127 && leAt bs 8 8 == 0) = true := by decide +kernel

theorem wit_TileResults_sample : sorting.scalarTarget false true 0x400 8 =
    (.ok { home := .scratch 0x8000 0x400, win := 0, region := 16, pa := 0x400, pol := 0, hf := 0 }, sorting) := by rfl

/-- A supervisor strand whose partition has the entry of address 2^36 in a STATE, and a stack of 64 GiB frames at scratchpad 0x420. -/
def pool (st count cap : Nat) : State :=
  let s := mapped 6 0x10_0000_0000 id
  let s1 := s.hostWrite (placedTable + 8) (leBytes 8 (placedLeaf - 4 + 2 * st + 2 ^ 28))
  let stack := leBytes 8 0x1000 ++ leBytes 4 count ++ leBytes 4 cap
  { s1 with mem := (s1.mem.writeN (scratchKey 0x8000 0x420) stack).writeN (scratchKey 0x8000 0x1000) (leBytes 8 (2 ^ 29)) }.modPart 0 fun x =>
    { x with fpool := 0x400 }

/-- The entry of 2^36 with the words of its stack, where they are read as the statement asks. -/
def poolReads (s : State) (p : Walk → List Byte → State → Bool) : Bool :=
  match leafFrom s 0x10_0000_0000 4 0 (s.partFor s.cur.cn).root with
  | .error _ => false
  | .ok w => !s.frameMoving (frameBase w.pte) (2 ^ pageBits w.level) && match s.readBytes (s.access true false)
      ((s.partFor s.cur.cn).fpool + BitVec.ofNat 64 ((3 - w.level) * 16)) 16 with
    | (.ok bs, t) => p w bs t
    | _ => false

theorem wit_FramesComeAndGo : (pool 1 1 4).alone = true ∧ (pool 1 1 4).cur.slot ≠ 11 ∧ (pool 1 1 4).net = [] ∧ (pool 1 1 4).me.sup = true ∧
    user3.alone = true ∧ user3.me.sup = false ∧ user3.net = [] ∧ (pool 1 1 4).releaseWaits 0x8000 0 4 = false ∧
    poolReads (pool 1 0 4) (fun w bs _ => pteState w.pte == 1 && leAt bs 8 4 == 0) = true ∧
    poolReads (pool 1 1 4) (fun w bs t => pteState w.pte == 1 && leAt bs 8 4 == 1 &&
      readsBytes (t.readBytes (t.access true false) (wordAt bs 0) 8) fun _ u =>
        (u.writeBytes (u.access false true) u.cur.slot (0x428) (leBytes 4 0)).toBool) = true ∧
    poolReads (pool 2 4 4) (fun w bs _ => pteState w.pte == 2 && leAt bs 12 4 == 4 && leAt bs 8 4 == 4) = true ∧
    poolReads (pool 2 0 4) (fun w bs t => pteState w.pte == 2 && leAt bs 8 4 == 0 &&
      !t.frameInUse (frameBase w.pte) (2 ^ pageBits w.level) && match t.writeBytes (t.access false true) t.cur.slot (wordAt bs 0)
        (leBytes 8 (pteFrame w.pte * 2 ^ 8 + pteRegion w.pte * 2 ^ 60)) with
      | .error _ => false
      | .ok u => (u.writeBytes (u.access false true) u.cur.slot 0x428 (leBytes 4 1)).toBool) = true := by decide +kernel

/-- Free list 1 of a partition: 8 blocks of 32 bytes at 0x1000, their bitmap at 0x2000 with block 3 marked. -/
def list (head free : Nat) (block : Word) : State :=
  let s := regs2 3 4 6 1 7 block
  let d := leBytes 8 0x1000 ++ leBytes 8 0x2000 ++ leBytes 4 32 ++ leBytes 4 8 ++ leBytes 4 head ++ leBytes 4 free
  { s with
    parts := [(0, { part with alist := BitVec.ofNat 64 (0x400 + 1 * 2 ^ 56) })]
    mem := (s.mem.writeN (scratchKey 3 0x420) d).writeN (scratchKey 3 0x2000) [8] }

theorem wit_BlocksComeAndGo : (list 2 1 0).alone = true ∧ (list 2 1 0).cur.slot ≠ 11 ∧ (list 2 1 0).srcPart.alist.toNat / 2 ^ 56 = 1 ∧
    ((list 2 1 0).modMe fun t => t.setX 6 2).srcPart.alist.toNat / 2 ^ 56 < 2 ∧ (list 2 1 0).releaseWaits 3 4 4 = false ∧
    readsBytes ((list 0xFFFFFFFF 0 0).readStrand 0x420 32) (fun bs _ => leAt bs 24 4 == 0xFFFFFFFF) = true ∧
    readsBytes ((list 2 1 0).readStrand 0x420 32) (fun bs t => leAt bs 24 4 == 2 && leAt bs 28 4 == 1 &&
      readsBytes (t.readBytes (t.access true false) 0x1040 4) fun link u =>
        readsBytes (u.readBytes (u.access true false) 0x2000 1) fun m v => leNat m / 2 ^ 2 % 2 == 0 &&
          (v.writeAll (v.access false true) v.cur.slot [(0x2000, leBytes 1 (leNat m + 4)), (0x438, link ++ leBytes 4 0)]).toBool) = true ∧
    readsBytes ((list 2 1 0x1010).readStrand 0x420 32) (fun bs _ => (0x1010 - leAt bs 0 8) % leAt bs 16 4 != 0) = true ∧
    readsBytes ((list 2 1 0x1060).readStrand 0x420 32) (fun bs t => leAt bs 0 8 == 0x1000 && leAt bs 16 4 == 32 && leAt bs 20 4 == 8 &&
      readsBytes (t.readBytes (t.access true false) 0x2000 1) fun m u => m.length == 1 && leNat m / 2 ^ 3 % 2 == 1 &&
        (u.writeAll (u.access false true) u.cur.slot [(0x1060, slice bs 24 4), (0x2000, leBytes 1 (leNat m - 8)),
          (0x438, leBytes 4 3 ++ leBytes 4 2)]).toBool) = true ∧
    readsBytes ((list 2 1 0x10E0).readStrand 0x420 32) (fun bs t => (0x10E0 - leAt bs 0 8) / leAt bs 16 4 == 7 && leAt bs 20 4 == 8 &&
      readsBytes (t.readBytes (t.access true false) 0x2000 1) fun m _ => m.length == 1 && leNat m / 2 ^ 7 % 2 == 0) = true := by decide +kernel

/-- A dense sequencer with a domain of its die, with holds of its strand and a phase or none. -/
def gathered (q : Option Domain) (h : List (Addr × Hold)) (p : Option Phase) : State :=
  { at_ 0x8000 4 (fun t => { t with holds := h }) (fun c => { c with phase := p }) with
    doms := match q with
      | some d => [(0, d)]
      | none => [] }

/-- The domain with both members arrived. -/
def allArrived : Domain := { domain with arrived := [0x8000, 0x8001], votes := [true, false] }

theorem wit_BarriersAndSlots : (gathered (some domain) [] none).alone = true ∧ (gathered (some domain) [] none).cur.slot ≠ 11 ∧
    (gathered (some domain) [(0x1000, .released true false)] none).held = some (.released true false) ∧
    (gathered (some domain) [] none).held = none ∧ ((gathered (some domain) [] none).me.getX 6).toNat % 64 = 0 ∧
    (gathered (some domain) [] none).usable 0x8000 0 = some domain ∧ domain.sched = false ∧
    (gathered (some domain) [] none).releaseWaits 0x8000 4 3 = false ∧ (gathered none [] none).usable 0x8000 0 = none ∧
    (gathered none [] (some phase)).myCore.phase = some phase ∧ (leNat phase.owned).testBit 6 = true ∧
    (gathered none [] (some phase)).cycle < phase.b + 16 + 6 ∧ phase.b + 16 + 6 ≤ (gathered none [] (some phase)).cycle + 22 ∧
    (gathered none [] none).myCore.phase = none ∧
    phase.b + 16 + phase.nslot ≤ ({ gathered none [] (some phase) with cycle := 1080 } : State).cycle ∧
    ((gathered none [(0x1000, .slot 6)] (some phase)).strand 0x8000 4).holds = [((gathered none [] none).cur.pc, .slot 6)] ∧
    (gathered (some allArrived) [] none).dom? 0 0 = some allArrived ∧ allArrived.paired = false ∧ allArrived.members 0 = [0x8000, 0x8001] ∧
    (∀ cn ∈ allArrived.members 0, cn ∈ allArrived.arrived) ∧ (allArrived.members 0).Nodup ∧
    ((gathered (some allArrived) [(0x1000, .barrier 0 0 none)] none).strand 0x8000 4).holds = [(0x1000, .barrier 0 0 none)] := by decide +kernel

/-- A message of two words to core 3 with the partition's key, in flight, before an inbox with n messages. -/
def letter (key : Nat) : Msg := { target := BitVec.ofNat 64 (key * 2 ^ 48 + 0xFFFF0003), srcDev := 0xFFFF, srcCn := 3, payload := [7, 8], arrived := 0 }
def posted (n : Nat) (held : List Msg) : State :=
  let s := at_ 3 4 (fun t => t.setX 6 (letter 5).target) fun c => { c with inbox := List.replicate n (letter 5), heldIn := held }
  { s.accesses (.scratch 3 0) (.send (letter 5)) (letter 5).target none with cycle := 1001, cur := { s.cur with since := s.nextRid + 1 } }

theorem wit_MessagesAreDelivered : (posted 0 []).alone = true ∧ (posted 0 []).cur.slot ≠ 11 ∧
    ((posted 0 []).me.getX 6).toNat / 2 ^ 36 % 2 ^ 12 = 0 ∧ isCore 3 = true ∧ (posted 0 []).isLocal 0xFFFF = true ∧
    (posted 0 []).myCore.phase = none ∧ (posted 0 []).sendFull 3 = false ∧ isCore 0x8010 = false ∧
    ((posted 0 []).net.map fun r => (r.op, r.home)) = [(.send (letter 5), .scratch (letter 5).cn 0)] ∧ (posted 0 []).canPerform 0 = true ∧
    (posted 0 []).portFull 3 = false ∧ (posted 0 []).quarantined 3 = false ∧ ((posted 0 []).partFor 3).key = 5 ∧
    (letter 5).target.toNat / 2 ^ 48 = 5 ∧ ((posted 0 []).core 3).heldIn = [] ∧ ((posted 16 []).core 3).inbox.length = 16 ∧
    (posted 16 []).portFull 3 = false ∧ (posted 16 []).canPerform 0 = true ∧
    ((posted 15 [letter 5]).core 3).heldIn = letter 5 :: [] ∧ ((posted 15 [letter 5]).core 3).inbox.length < 16 := by decide +kernel

/-- A GET of a tile of n bytes in ticket 5 of core 3, from a scratchpad address; its element runs or waits for its grant. -/
def copying (va : Word) (bytes : Nat) (run : Bool) : State := at_ 3 4 id fun c =>
  (c.setTile 3 { readers := 0, st := .filling, bytes := bytes, base := 0x3000 }).setTicket 5 { Ticket.empty with
    live := true, running := run, word := encode (.get 0 5 6 3 0), xa := va, dtile := some 3, owner := 4, issuer := 4 }

/-- What an element of ticket 5 of core 3 does. -/
def copied (s : State) (p : ElemEnd → Bool) : Bool := p (({ s with cur := { s.cur with since := s.nextRid } } : State).elementRun 3 5)

/-- The ticket of the copy, as the statement reads it. -/
def ready5 (s : State) : Bool :=
  let x := (s.core 3).ticket 5
  x.live && x.st == .pending && x.running && !x.cxl && !x.det && !x.rots && !x.refs && !((s.core 3).strand x.owner).exiting &&
    (List.range 64).all (fun k => !(s.core 3).freesNow k) && x.dtile == some 3 && x.stile == none && x.stile2 == none

theorem wit_ElementsOfTickets : (copying 0x400 32 false).engineBusy 3 0 = false ∧ (copying 0x400 32 false).nextGrant 3 0 = some (3, 5) ∧
    ready5 (copying 0x400 8192 true) = true ∧ ready5 (copying 0x400 32 true) = true ∧
    copied (copying 0x400 8192 true) (fun e => match e with
      | .ended u f last => !last && !flagsTrap 0 f && (u.core 3).ticket 5 == ((copying 0x400 8192 true).core 3).ticket 5
      | _ => false) = true ∧
    copied (copying 0x400 32 true) (fun e => match e with
      | .ended u f last => last && !flagsTrap 0 f && ready5 u && (u.core 3).ticket 5 == ((copying 0x400 32 true).core 3).ticket 5
      | _ => false) = true ∧
    copied (copying 0x100000 32 true) (fun e => match e with
      | .fault u c _ => c == 5 && (u.core 3).ticket 5 == ((copying 0x100000 32 true).core 3).ticket 5
      | _ => false) = true ∧
    copied (copying 0x70000 32 true) (fun e => match e with
      | .fault u c _ => c != 5 && c != 6 && ready5 u && (u.core 3).ticket 5 == ((copying 0x70000 32 true).core 3).ticket 5
      | _ => false) = true := by decide +kernel

/-- Dense sequencers 0x8000 and 0x8001 with a ticket in slot 5 of each, and bytes in a storage of each. -/
def pair (x : Ticket) (t : Core → Core) (key : Nat → Nat) (a b : List Byte) : State :=
  let c := (t Core.reset).setTicket 5 x
  { State.reset with
    parts := [(0, part)], cores := [(0x8000, c), (0x8001, c)], cycle := 1000, cur := cursor 0x8000 4, doms := [(0, domain)]
    mem := (((Memory.writeN [] (key 0x8000) a)).writeN (key 0x8001) b) }

/-- COLL of a sum over tile 1 into tile 2. -/
def summing : State := pair { Ticket.empty with
    live := true, running := true, word := encode (.coll 0 5 6 1 1 0), stile := some 1, dtile := some 2, owner := 4, issuer := 4, sup := true }
  (fun c => (c.setTile 1 { readers := 1, st := .ready, bytes := 8, base := 0x1000 }).setTile 2 { readers := 0, st := .filling, bytes := 16, base := 0x2000 })
  (fun m => scratchKey m 0x1000) (leBytes 4 0xFFFFFFFF ++ leBytes 4 5) (leBytes 4 3 ++ leBytes 4 6)

/-- The command of an MROT of row 0, columns 0 and 1: A of 128 rows at 0, B at 0x1000. -/
def rotating : List Byte :=
  leBytes 4 (11 + 11 * 16 + 256 + 1024 + 2 ^ 20) ++ leBytes 2 1 ++ leBytes 2 1 ++ leBytes 4 32 ++ leBytes 4 0 ++ leBytes 8 0 ++
    leBytes 8 0x1000 ++ leBytes 4 32 ++ leBytes 4 32 ++ List.replicate 24 0
def turning : State := pair { Ticket.empty with
    live := true, word := encode (.mrot 0 5 6 0), cmd := rotating, elem := 1, owner := 4, issuer := 4 } id
  (fun m => operandKey m 0) [1, 2, 3] [4, 5, 6]

theorem wit_EnginesTogether_together : summing.mem.wf = true ∧ summing.collMembers 0 0 = [(0x8000, some 5), (0x8001, some 5)] ∧
    [0x8000, 0x8001].all (fun m => let y := (summing.core m).ticket 5
      y.running && !summing.pendingTo m (.scratch m 0) && y.collOp == 1 && y.sup && y.fctl == 0 && y.stile == some 1 && y.dtile == some 2 &&
        ((summing.core m).tile 1).bytes == 8 && 8 ≤ ((summing.core m).tile 2).bytes) = true ∧
    turning.mem.wf = true ∧ rotMembers 0x8000 (matCmd rotating).ctl = [0x8000, 0x8001] ∧ (matCmd rotating).ctl / 2 ^ 20 % 16 = 1 ∧
    (turning.core 0x8000).rotsOf.head? = some 5 ∧ (turning.core 0x8001).rotsOf.head? = some 5 ∧ (matCmd rotating).steps ≤ 1 ∧
    ((turning.core 0x8000).ticket 5).running = false ∧ ((turning.core 0x8000).ticket 5).parked = false ∧
    fmtBytes (matCmd rotating).afmt (matCmd rotating).k ≤ (matCmd rotating).astr ∧
    (matCmd rotating).aaddr + 128 * (matCmd rotating).mb * (matCmd rotating).astr ≤ (matCmd rotating).baddr ∧
    fmtBytes (matCmd rotating).bfmt (matCmd rotating).k ≤ (matCmd rotating).bstr ∧
    (matCmd rotating).baddr + 128 * (matCmd rotating).nb * (matCmd rotating).bstr ≤ 0x200000 := by decide +kernel

/-- A ticket in slot 5 of core 3 with one request of an engine in flight. -/
def commanded (x : Ticket) (op : ReqOp) : State :=
  let s := at_ 3 4 id fun c => c.setTicket 5 x
  { s with net := [{ s.request (.owner 3) op 0 with slot := 12, rid := 3 }], nextRid := 4 }
def mcmdOf (cap : Nat) : State := commanded { Ticket.empty with live := true, seq := 9, word := encode (.mcmd 0 5 6 7 0) }
  (.mcmd 0x8000 cap 0 rotating 5 9)
def asking (dev : Nat) : State := commanded { Ticket.empty with live := true, running := true, cmd := bindCopy descriptor } (.rowReq dev 1 2 3 5 0)

/-- Table 1 of the federation in the scratchpad of core 0, the lead core: a descriptor at 0x400 of rows of 16 bytes at 0x1000. -/
def serving (dev : Nat) : State :=
  let s := asking dev
  let d := leBytes 8 0x1000 ++ leBytes 8 64 ++ leBytes 8 (8 * 256) ++ List.replicate 40 0
  let t := { s with
    dev := { s.dev with ftbase := 0x300000, ftcount := 2 }
    mem := (s.mem.writeN (scratchKey 0 0x400) d).writeN (scratchKey 0 0x1020) [7, 8, 9] }
  t.hostWrite 0x300010 (leBytes 8 1 ++ leBytes 8 0x400)

theorem wit_EnginesTogether_requests : (mcmdOf 5).canPerform 0 = true ∧ ((mcmdOf 5).net.map (·.src)) = [3] ∧
    ((mcmdOf 5).partFor 0x8000).key = 5 ∧ (((mcmdOf 5).core 3).ticket 5).live = true ∧ (((mcmdOf 5).core 3).ticket 5).st = .pending ∧
    (((mcmdOf 5).core 3).ticket 5).seq = 9 ∧ (((mcmdOf 5).core 3).ticket 5).det = false ∧ (mcmdOf 6).canPerform 0 = true ∧
    ((asking 7).net.map (·.op)) = [.rowReq 7 1 2 3 5 0] ∧ (((asking 7).core 3).ticket 5).running = true ∧
    (((asking 7).core 3).ticket 5).elem = 0 ∧ (((asking 7).core 3).ticket 5).answer = none ∧
    (serving 7).isLocal 7 = false ∧ (serving 0xFFFF).isLocal 0xFFFF = true ∧
    [serving 7, serving 0xFFFF].all (fun s => match s.serveRow 1 2 0 with
      | (.ok row, _) => row == [7, 8, 9] ++ List.replicate 13 0
      | _ => false) = true := by decide +kernel

/-- A request to offset 0x100 of core 3's scratchpad, whose strand waits for its reply, with bytes there. -/
def wanted (op : ReqOp) (bs : List Byte) (depart due : Option Nat) : State :=
  let s := at_ 3 4 (fun t => { t with holds := [(0x1000, .reply 7)] }) id
  { s with
    net := [{ s.wordRequest (.scratch 3 0x100) op 0x100 none depart due with rid := 7 }]
    mem := s.mem.writeN (scratchKey 3 0x100) bs }

/-- A contribution to a STEPPED table. -/
def contribution : RowUpd :=
  { units := [(0x100000, 0, 0)], op := 1, fmt := 8, lr := 0, eps := 0, ukey := 0, id := 3, tag := some 4, desc := 0x400, mode := 2
    data := List.replicate 16 1, cn := 3, tslot := 5, seq := 0, elem := 0, fctl := 0, part := 0 }

theorem wit_RequestsTakeEffect_home : [ReqOp.stepTag 0x400, .tstep 0x400 1 0 9 false, .row contribution, .vpub 0x400 7].all (fun op =>
      let s := wanted op [9] none (some 1000)
      s.mem.wf && s.canPerform 0 && s.net.map (·.home) == [.scratch 3 0x100] && !s.quarantined 3 &&
        (s.strand 3 4).holds == [(0x1000, .reply 7)]) = true ∧
    (wanted (.tstep 0x400 1 0 9 false) [9] none (some 1000)).stepBlocked 0x400 1 0 9 = false ∧
    getKey (wanted (.tstep 0x400 1 0 9 false) [9] none (some 1000)).stepped 3 = none ∧
    ((wanted (.row contribution) [] none (some 1000)).part 0).status = .running ∧
    (wanted (.row contribution) [] none (some 1000)).rowWaiting contribution = false ∧
    (let s := wanted (.vpub 0x400 7) [3, 0, 4, 0, 1] none (some 1000)
      let old := s.mem.readN (scratchKey 3 0x100) 32
      leAt old 4 1 % 2 == 1 && leAt old 8 4 == 0 && leAt old 2 2 != 7 && s.canPerform 0 && s.mem.wf) = true := by decide +kernel

/-- A SHIP at the update engine of a line, and a lost word of core 3. -/
def shipped (op v : Nat) : State :=
  let s := wanted (.ship op v true) [] (some 0) none
  State.hostWrite { s with net := s.net.map fun r => { r with home := .line 0x2008 0 0 0 } } 0x2008 (leBytes 8 (2 ^ 64 - 3))
def bereft : State :=
  let s := wanted (.loss 0x80 3 0 none) [] none none
  { s.modCore 3 fun c => { c with near := [(0x80, { val := 5, owned := true, home := 0 })] } with
    net := s.net.map fun r => { r with home := .owner 3 } }

theorem wit_RequestsTakeEffect_lines : [0, 2, 3, 4, 5].all (fun op => (shipped op 9).mem.wf &&
      (shipped op 9).net.map (fun r => (r.op, r.home)) == [(.ship op 9 true, .line 0x2008 0 0 0)] &&
      !(shipped op 9).poison.contains ((shipped op 9).poisonKey 0x2008)) = true ∧
    (wanted (.store [1, 2] 0 false) [] (some 1000) none).cycle = 1000 ∧ (wanted (.store [1, 2] 0 false) [] (some 1000) none).mem.wf = true ∧
    ((wanted (.store [1, 2] 0 false) [] (some 1000) none).net.map fun r => (r.depart, r.due)) = [(some 1000, none)] ∧
    ((wanted (.store [1, 2] 0 false) [] (some 976) (some 1000)).net.map fun r => (r.depart, r.due)) = [(some 976, some 1000)] ∧
    bereft.canPerform 0 = true ∧ getKey bereft.owner 0x80 = none ∧
    getKey (bereft.core 3).near 0x80 = some { val := 5, owned := true, home := 0 } ∧
    ((at_ 3 4 (fun t => { t with pend := [{ reg := .v 11, rid := 0, val := some 6, turns := none }] }) id).strand 3 4).pend[0]? =
      some { reg := .v 11, rid := 0, val := some 6, turns := none } ∧
    (core3.core 3).regs.claim = none ∧ (core3.strand 3 4).await = none ∧
    ((at_ 3 4 (fun t => { t with divFree := 1000 }) id).strand 3 4).divFree ≤ core3.cycle := by decide +kernel

/-- A device with one partition and the host's links, the lead core's descriptor of domain 3 at 0x980, and the partition's loads. -/
def hosted (f : Machine.Part → Machine.Part) : State :=
  let s : State := { State.reset with parts := [(0, f part)], cores := [(0, { Core.reset with regs := { CoreRegs.reset with bdtab := 0x800 } })] }
  { s with mem := s.mem.writeN (scratchKey 0 0x980) (List.replicate 0x44 0 ++ [3, 0]) }

theorem wit_HostRegisters : (hosted id).part? 0 = some part ∧ (hosted id).dev.linked = true ∧ (hosted id).dev.command = none ∧
    part.eq.drops = 0 ∧ (hosted id).dev.eq.drops = 0 ∧ (hosted id).net = [] ∧ ((hosted id).core part.lead).heldIn = [] ∧
    { hosted id with dev := { (hosted id).dev with linked := false } }.dev.linked = false ∧
    (match (hosted id).supRead part.lead 0 0x900 17 256 with
      | (.ok bs, _) => bs.length == 256
      | _ => false) = true ∧
    (match (hosted fun x => { x with doms := #v[8, 0] }).supRead part.lead 0 (((hosted id).core part.lead).regs.bdtab.toNat + 128 * 3) 9 128 with
      | (.ok bs, t) => t.domainReason 0 0 3 (some bs) == 0
      | _ => false) = true := by decide +kernel

/-- A creation record for partition p of cluster 5, and the command under way. -/
def creating (p key : Nat) : State :=
  let s := { State.reset with dev := { DeviceRegs.reset with command := some (1, p), cstat := 1 } }
  let m := ((s.mem.writeN (crecKey 0) (leBytes 8 (p + key * 2 ^ 16))).writeN (crecKey 8) (leBytes 8 32)).writeN (crecKey 0xA0) (leBytes 8 10)
  { s with mem := m.writeN (crecKey 0x250) (leBytes 8 0x4000) }

/-- A partition without cores. -/
def empty (f : Machine.Part → Machine.Part) : State := { State.reset with parts := [(0, f { part with clusters := [], dense := [] })] }

theorem wit_PartitionsComeAndGo : (creating 2 0).dev.command = some (1, 2) ∧ (creating 2 0).createReason 2 (creating 2 0).crecPart ≠ 0 ∧
    (creating 2 7).dev.command = some (1, 2) ∧ (creating 2 7).createReason 2 (creating 2 7).crecPart = 0 ∧ (creating 2 7).crecPart.follow = 0 ∧
    (creating 2 7).crecPart.cores.length = 32 ∧ (hosted id).dev.linked = true ∧ (hosted id).dev.command = none ∧ (hosted id).part? 1 = none ∧
    (hosted id).part? 0 = some part ∧ rising (hosted id).parts = true ∧ part.refs[0]?.getD false = false ∧ part.refs[1]?.getD false = false ∧
    (let s := empty fun x => { x with status := .stopping, stop := true };
      s.canSave 0 && ((s.part 0).cores == []) && (s.part 0).eq.drops == 0 && match (s.withdraw 0).saveCores 0 [] with
        | .ok t => t.part? 0 == s.part? 0
        | _ => false) = true ∧
    (let s := empty fun x => { x with status := .saved, saved := true };
      (s.part 0).saved && (s.part 0).cores == [] && (s.loadCores 0 []).toBool) = true ∧
    ((hosted fun x => { x with status := .fatal }).part 0).status = .fatal := by decide +kernel

/-- A granted extent, and a dirty line. -/
def extended (r : Bool) : State :=
  { State.reset with dev := { DeviceRegs.reset with extents := [{ num := 9, part := 0, dev := 4, releasing := r, revoked := false }] } }
def dirty : State := { State.reset with l2 := [(7, { data := [], dirty := 1, poison := false, victim := false })] }

theorem wit_TheModule : State.reset.powerLoss.powered = false ∧
    ({ State.reset with powered := false, dev := { DeviceRegs.reset with staged := some [1] } } : State).dev.staged = some [1] ∧
    State.reset.powered = true ∧ State.reset.dev.linked = true ∧ (hosted id).extent? 9 = none ∧ ((hosted id).part? 0).isSome = true ∧
    (extended true).dev.extents = [{ num := 9, part := 0, dev := 4, releasing := true, revoked := false }] ∧ (extended true).l2 = [] ∧
    (extended true).net = [] ∧ (getKey dirty.l2 7).map (·.dirty) = some 1 ∧ (hosted id).partOf? 0 = some 0 ∧
    (let s : State := { State.reset with cycle := 999999, dev := { DeviceRegs.reset with corrected := #v[0, 3] } };
      (s.cycle + 1) % 1000000 == 0 && s.dev.corrected[1]?.getD 0 != 0 && s.parts == [] && s.dev.eq.drops == 0 &&
        decide (s.dev.eq.prod - s.dev.eq.cons < 256)) = true ∧
    (at_ 3 4 (fun t => { t with notReady := 1024 }) fun c => { c with regs := { c.regs with wdog := 1 } }).watchdogDue 3 4 = true ∧
    (at_ 3 4 id id).partOf? 3 = some 0 ∧ core3.watchdogDue 3 4 = false := by decide +kernel

/-- A task record in a state with a count at offset 0x40 of core 3, a request to it, and the run list of level 0. -/
def tasking (st count : Nat) (op : ReqOp) (l : List (Nat × Nat)) : State :=
  let s := wanted op [] none (some 1000)
  (State.modCore { s with net := s.net.map fun r => { r with home := .scratch 3 0x40 } } 3 fun c =>
    { c with runList := c.runList.set 0 l }).setTaskRec 3 0x40 (0x4000 + 7 * 2 ^ 128 + count * 2 ^ 160 + st * 2 ^ 181)

def spec24 : List Byte := leBytes 8 0x5000 ++ leBytes 8 77 ++ leBytes 4 7 ++ leBytes 2 3 ++ leBytes 2 2

theorem wit_TasksAndPages : [tasking 0 0 (.task 0x40 spec24 true) [], tasking 1 0 (.task 0x40 spec24 true) [],
      tasking 1 2 (.decr (taskHandle 7 0x40 3)) [], tasking 1 1 (.decr (taskHandle 7 0x40 3)) []].all (fun s =>
      s.mem.wf && s.canPerform 0 && s.net.map (·.home) == [.scratch 3 0x40] && !s.quarantined 3 &&
        recTaskNo (s.taskRec 3 0x40) == 7 && (s.core 3).runList == .replicate 4 []) = true ∧
    recState ((tasking 0 0 (.task 0x40 spec24 true) []).taskRec 3 0x40) = 0 ∧ spec24.length = 24 ∧ leAt spec24 0x14 2 ≠ 0 ∧
    recState ((tasking 1 0 (.task 0x40 spec24 true) []).taskRec 3 0x40) = 1 ∧
    recCounter ((tasking 1 2 (.decr (taskHandle 7 0x40 3)) []).taskRec 3 0x40) = 2 ∧
    recCounter ((tasking 1 1 (.decr (taskHandle 7 0x40 3)) []).taskRec 3 0x40) = 1 ∧
    (taskHandle 7 0x40 3).toNat / 2 ^ 16 % 2 ^ 16 = 0x40 ∧ (taskHandle 7 0x40 3).toNat / 2 ^ 32 = 7 ∧
    (tasking 1 0 (.taskAck 5 none) []).canPerform 0 = true ∧
    ((tasking 1 0 (.taskAck 5 none) []).strand 3 4).holds = [(0x1000, .reply 7)] ∧
    (({ tasking 2 0 (.taskAck 5 none) [(0x40, 0)] with cycle := 65536 } : State).core 3).runList = (Vector.replicate 4 []).set 0 [(0x40, 0)] ∧
    (({ State.reset with moves := [{ page := 5, dest := 9 }] } : State).pageHeld 5 = false) := by decide +kernel
/-- SPAWN, JOIN, IDLE, EXIT and NEXT on the other states that they go on in. -/
def helped : State := at_ 3 0 (fun t => t.setX 6 8) fun c => c.setStrand 1 { Strand.empty with live := true }
def messaged : State := at_ 3 11 id fun c => { c with run := .message }
def owning (slot : Nat) (st : TicketState) : State := at_ 3 slot id fun c =>
  c.setTicket 63 { c.ticket 63 with live := true, st := st, owner := slot, gen := 1, tflags := 5 }

theorem wit_HelperWords_ends : helped.alone = true ∧ helped.cur.slot = 0 ∧ (∀ i, 1 ≤ i → i ≤ 10 → (helped.myCore.strand i).live = true →
      (6 : BitVec 5) ≠ 0 ∧ (helped.me.getX 6).getLsbD i = false) ∧
    (at_ 3 4 (fun t => { t with holds := [(0x1000, .woken)] }) id).held = some .woken ∧
    messaged.alone = true ∧ messaged.cur.slot = 11 ∧ messaged.myCore.run = .message ∧
    (owning 4 .cancelled).alone = true ∧ (owning 4 .cancelled).myCore.attached 4 = [63] ∧
    ((owning 4 .cancelled).myCore.ticket 63).st = .cancelled ∧ (owning 4 .cancelled).releaseWaits 3 4 4 = false ∧
    (owning 0 .done).myCore.noHelpers = true ∧ (owning 0 .done).myCore.attached 0 = [63] ∧ ((owning 0 .done).myCore.ticket 63).st = .done := by
  refine ⟨by decide, by decide, ?_, by decide, by decide, by decide, by decide, by decide +kernel, by decide +kernel, by decide +kernel, by decide +kernel,
    by decide +kernel, by decide +kernel, by decide +kernel⟩
  intro i h1 h2
  have : i = 1 ∨ i = 2 ∨ i = 3 ∨ i = 4 ∨ i = 5 ∨ i = 6 ∨ i = 7 ∨ i = 8 ∨ i = 9 ∨ i = 10 := by omega
  rcases this with h | h | h | h | h | h | h | h | h | h <;> subst h <;> decide

theorem wit_NextTakesTheOldestTask_attached :
    (let s := tasked.modMyCore fun c => c.setTicket 63 { c.ticket 63 with live := true, st := .done, owner := 0, gen := 1, tflags := 5 };
      s.myCore.attached 0 == [63] && (s.myCore.ticket 63).st == .done && (List.range 64).all (fun n => !s.myCore.freesNow n) &&
        s.alone && s.mem.wf && s.myCore.topLevel == some 3) = true := by decide +kernel

/-- A strand with a task specification at scratchpad offset 0xFFE8 for the last record of its own core, and one refused. -/
def specified : State :=
  let s := at_ 3 4 (fun t => (t.setX 6 0xFFE8).setX 7 0xFFE0_0003) id
  { s with mem := s.mem.writeN (scratchKey 3 0xFFE8) (leBytes 8 0x5000 ++ leBytes 8 77 ++ leBytes 4 7 ++ leBytes 2 3 ++ leBytes 2 2) }

theorem wit_TaskAndDecrement_begun : specified.alone = true ∧ specified.held = none ∧ specified.mine 3 = true ∧
    (specified.me.getX 7).toNat / 2 ^ 16 % 2 ^ 16 % 32 = 0 ∧
    readsBytes (specified.readStrand 0xFFE8 24) (fun spec _ => leAt spec 0x16 2 / 4 % 2 != 1 && leAt spec 0 8 % 4 == 0) = true ∧
    (at_ 3 4 (fun t => { t with holds := [(0x1000, .replied 0 (some (0x07, 9)))] }) id).held = some (.replied 0 (some (0x07, 9))) := by
  decide +kernel

/-- A control strand whose context area is mapped, and one whose area is not. -/
def contexts (base : Word) : State := (mapped 6 0 fun c => { c with regs := { c.regs with ctxbase := base } }).modMe fun t => { t with x := t.x }

theorem wit_ModesAndContexts_area : (contexts 0x200000).alone = true ∧ (contexts 0x200000).cur.slot = 0 ∧ (contexts 0x200000).me.sup = true ∧
    (contexts 0x200000).atRest 0x8000 = true ∧ (∀ i < 12, 0 < i → ((contexts 0x200000).myCore.strand i).live = false) ∧
    (match (contexts 0x80_0000_0000).readBytes ((contexts 0x80_0000_0000).access true false) 0x80_0000_0000 0x18000 with
      | (.error (.fault _ _), _) => true
      | _ => false) = true := by decide +kernel

/-- The tickets and holds that the other clauses of TicketsAreObserved ask for. -/
theorem wit_TicketsAreObserved_others : ((waiting id).myCore.ticket 63).armedAt = none ∧
    (∀ i < 12, ((waiting id).strand 3 i).exiting = false) ∧ (∀ j < 64, j ≠ 63 → (waiting id).myCore.freesNow j = false) ∧
    ((waiting id).modMe fun t => { t with holds := [(0x1000, .observed 63 1023 2 5)] }).held = some (.observed 63 1023 2 5) ∧
    ((waiting id).modMe fun t => { t with holds := [(0x1000, .observed 63 1023 1 5)] }).alone = true := by decide +kernel

/-- A weight-set descriptor: versions 3 and 4, half 1 active, with a count of holds on half 0. -/
def weights (hold : Nat) : List Byte := [3, 0, 4, 0, 1, 0, 0, 0] ++ leBytes 4 hold ++ leBytes 4 0 ++ leBytes 8 9 ++ leBytes 8 0

/-- A VPUB or VSWITCH of strand 4 of core 3 at its home: the set is at offset 0x100 of core 3, and the followed one at 0x100 of
core 0, the lead core. -/
def switching (op : ReqOp) (hold ver : Nat) : State :=
  let s := wanted op (weights hold) none (some 1000)
  { s with
    parts := [(0, { part with follow := 0x100, vsel := { sel := 0, follow := true, ver := ver } })]
    mem := s.mem.writeN (scratchKey 0 0x100) (weights hold)
    net := s.net.map fun r => match r.op with
      | .vswitch _ => { r with home := .owner 0x10000 }
      | _ => r }

theorem wit_TablesAndVersions_refused : (table [(0x1000, .replied 0 (some (0x0F, 9)))] true).held = some (.replied 0 (some (0x0F, 9))) ∧
    part.refs = .replicate 2 false ∧ ((table [] false).part 0).refs = .replicate 2 false ∧
    (let s := table [] false;
      (match (s.myCore.binding 7).map s.stepHome with
        | some (.ok h, _) => h == .scratch 0x8000 0x418
        | _ => false) && (Home.scratch 0x8000 0x400).far == false) = true ∧
    (let s := (table [] false).modMyCore fun c => { c with tslots := c.tslots.setIfInBounds 7 (some
        { desc := leBytes 8 0x100000 ++ leBytes 8 64 ++ leBytes 8 (2 ^ 19 + 3 + 8 * 256) ++ List.replicate 24 0, addr := 0x400, sel := 0, ver := 0 }) };
      (s.myCore.binding 7).map (·.hmode) == some true) = true ∧
    (table [] false).srcPart.vsel.follow = false := by decide +kernel

theorem wit_TablesAndVersions_homes : [switching (.vpub 0x400 7) 0 4, switching (.vpub 0x400 7) 1 4, switching (.vpub 0x400 4) 0 4].all (fun s =>
      s.canPerform 0 && s.net.map (·.slot) == [4] && (s.strand 3 4).holds == [(0x1000, .reply 7)] && s.net.map (·.home) == [.scratch 3 0x100] &&
        !(s.dropReq 0).lossesOf 3 4 && s.net.all fun r => match (s.dropReq 0).descAt r 32 with
          | (some bs, _) => wsActive bs == 1 && (wsVer bs 1 == 4) && wsHold bs 0 == (if s.mem.read (scratchKey 3 0x108) == 0 then 0 else 1)
          | _ => false) = true ∧
    [switching (.vswitch 3) 0 4, switching (.vswitch 4) 0 4, switching (.vswitch 4) 0 3].all (fun s =>
      s.canPerform 0 && !(s.dropReq 0).sampling 0 && match (s.dropReq 0).weightSet 0 with
        | (.ok bs, t) => wsVer bs (wsActive bs) == 4 && (t.part? 0).isSome && (t.strand 3 4).holds == [(0x1000, .reply 7)]
        | _ => false) = true := by decide +kernel

/-- A dense sequencer whose AZERO waits behind an earlier AZERO of the same accumulators. -/
def queued : State :=
  let s := sorting.modMe fun t => { t with holds := [(0x1000, .array 9 [] [accRange 0 1])] }
  s.modMyCore fun c => c.setStrand 5 { Strand.empty with live := true, holds := [(0x2000, .array 8 [] [accRange 0 1])] }

theorem wit_TileResults_waits : queued.alone = true ∧ queued.held = some (.array 9 [] [accRange 0 1]) ∧
    queued.arrayWaits 0x8000 (9, 0, 0) { reads := [], writes := [accRange 0 1] } = true ∧
    queued.arrayWaits 0x8000 (8, 0, 0) { reads := [], writes := [accRange 0 1] } = false ∧
    sorting.arrayWaits 0x8000 (sorting.nextRid, 0, 0) { reads := [accRange 63 1], writes := [] } = false ∧
    (sorting.modMyCore fun c => c.setStrand 5 { Strand.empty with live := true, holds := [(0x2000, .array 0 [] [accRange 63 1])] }).arrayWaits
      0x8000 (sorting.nextRid + 1, 0, 0) { reads := [accRange 63 1], writes := [] } = true ∧
    sorting.held = none ∧ sorting.switching = false ∧ sorting.locked true 0x8000 0x3000 32 = false ∧
    (mergeIds 5 (idEntries (sorting.tileBytes 0x8000 (sorting.myCore.tile 1))) (idEntries (sorting.tileBytes 0x8000 (sorting.myCore.tile 2)))
      none none [] false).2 = true ∧ 2 * 16 ≤ 256 ∧ 16 / 2 ≤ 256 ∧ 0x3000 + 32 ≤ 0x10000 := by decide +kernel

/-- A device of number 3 in a fabric: what the fabric reaches is a constant of Config without a value. -/
theorem wit_MessagesAreDelivered_far (h : Config.fabricReaches 3 7 = true) :
    ({ core3 with dev := { core3.dev with number := some 3 } } : State).isLocal 7 = false ∧
    ({ core3 with dev := { core3.dev with number := some 3 } } : State).reaches 7 = true ∧
    ({ core3 with dev := { core3.dev with number := some 3 } } : State).reaches 3 = false ∧ core3.reaches 7 = false ∧ core3.isLocal 7 = false := by
  refine ⟨by decide, by simp [State.reaches, h], by simp [State.reaches], by simp [State.reaches, core3, at_]; rfl, by decide⟩

/-- An ALOAD of a tile of n bytes in ticket 5 of a dense sequencer, whose element runs. -/
def filling (bytes : Nat) : State := at_ 0x8000 4 id fun c =>
  (c.setTile 3 { readers := 0, st := .draining, bytes := bytes, base := 0x3000 }).setTicket 5 { Ticket.empty with
    live := true, running := true, word := encode (.aload 0 5 6 3 0), stile := some 3, owner := 4, issuer := 4 }

/-- The premises of ElementsOfTickets on ticket 5 of a core: its element starts, or ends and its ticket ends plainly. -/
def starts5 (s : State) (cn : Nat) : Bool :=
  let x := (s.core cn).ticket 5
  x.live && x.st == .pending && x.running && x.armedAt.isNone && x.ending.isNone && !s.reachesFar cn 5 && !x.cxl

def plain5 (u : State) (cn : Nat) (x : Ticket) : Bool :=
  !x.det && !x.rots && !x.refs && !((u.core cn).strand x.owner).exiting && (List.range 64).all fun k => !(u.core cn).freesNow k

def element (s : State) (cn : Nat) (last out : Bool) : Bool :=
  match s.elementRun cn 5 with
  | .ended u f l => !flagsTrap ((s.core cn).ticket 5).fctl f && l == last && u.unitsOut cn 5 == out && plain5 u cn ((s.core cn).ticket 5) &&
      (u.core cn).ticket 5 == (s.core cn).ticket 5
  | _ => false

def ended5 : State := (copying 0x400 32 true).modCore 3 fun c => c.setTicket 5 { c.ticket 5 with ending := some (1, true) }

theorem wit_ElementsOfTickets_ends : (starts5 (filling 8192) 0x8000 && starts5 (filling 512) 0x8000 && starts5 (copying 0x400 32 true) 3) = true ∧
    element (filling 8192) 0x8000 false false = true ∧ element (filling 512) 0x8000 true false = true ∧
    element (copying 0x400 32 true) 3 true true = true ∧ ready5 ended5 = true ∧ ((ended5.core 3).ticket 5).ending = some (1, true) ∧
    ((ended5.core 3).ticket 5).answer = none ∧ ended5.unitsOut 3 5 = false ∧ flagsTrap ((ended5.core 3).ticket 5).fctl 1 = false ∧
    starts5 (copying 0x100000 32 true) 3 = true ∧ starts5 (copying 0x70000 32 true) 3 = true := by decide +kernel

/-- The same device with the number 3. -/
def numbered (k : Nat) : State := { serving k with dev := { (serving k).dev with number := some 3 } }

theorem wit_EnginesTogether_starts : summing.collStarts 0 0 = true ∧ ((summing.core 0x8000).ticket 5).ending = none ∧
    ((summing.core 0x8001).tile 1).base + 8 ≤ 0x10000 ∧ ((summing.core 0x8001).tile 2).base % 16 = 0 ∧ ((turning.core 0x8001).ticket 5).cmd ≠ [] ∧
    (asking 7).net.length = 1 ∧ ((((asking 7).core 3).ticket 5).cmd.getD 0x10 0).toNat = 3 ∧ (asking 7).dev.number = none ∧
    (numbered 7).isLocal 7 = false ∧ (numbered 7).dev.number ≠ none ∧
    (match (numbered 7).serveRow 1 2 0 with
      | (.ok row, _) => row.length == 16
      | _ => false) = true ∧
    (match ({ serving 0xFFFF with dev := { (serving 0xFFFF).dev with ftcount := 1 } } : State).serveRow 1 2 0 with
      | (.error c, _) => [0x07, 0x0F, 0x14].contains c
      | _ => false) = true := by decide +kernel

theorem wit_RequestsTakeEffect_grants :
    (let s := (wanted (.stepTag 0x400) [9] none (some 1000)).modStrand 3 4 fun t => { t with holds := [(0x1000, .tilesAsked (some 3) [1] 7)] };
      s.canPerform 0 && !s.grantsHeld 0x400 && (s.strand 3 4).holds == [(0x1000, .tilesAsked (some 3) [1] 7)]) = true ∧
    (wanted (.tstep 0x400 1 0 9 false) [9] none (some 1000)).lossesOf 3 4 = false ∧
    (let s := wanted (.store [1, 2] 0 false) [] (some 1000) none;
      s.net.any fun r => s.net.any r.collides) = false ∧
    (let s := wanted (.store [1, 2] 0 false) [] (some 1000) none;
      let t : State := { s with net := s.net ++ s.net.map fun (r : Req) => { r with src := 5, due := some 1024 } };
      t.net.any fun r => t.net.any r.collides) = true ∧
    (wanted (.store [1, 2] 0 false) [] (some 976) (some 1000)).quarantined 3 = false ∧
    (wanted (.store [1, 2] 0 false) [] (some 976) (some 1000)).net.map (fun r => (r.og, core3.lockRefuses r.sup r.home 2)) =
      [(none, false)] ∧ ((at_ 3 4 (fun t => { t with divFree := 1000 }) id).strand 3 4).divFree ≠ 0 := by decide +kernel

theorem wit_HostRegisters_function : ({ hosted id with dev := { (hosted id).dev with function := some 0 } } : State).dev.function = some 0 ∧
    (hosted id).dev.function = none ∧
    (hosted fun x => { x with routload := [(none, 0x9FF)] }).part? 0 = some { part with routload := [(none, 0x9FF)] } ∧
    (hosted fun x => { x with doms := #v[8, 0], domload := [(none, 3)] }).part? 0 = some { part with doms := #v[8, 0], domload := [(none, 3)] } := by
  decide +kernel

theorem wit_PartitionsComeAndGo_status : (hosted fun x => { x with status := .fatal }).part? 0 = some { part with status := .fatal } ∧
    (hosted id).part? 0 = some part ∧ part.saved = false ∧ (hosted id).dev.function = none := by decide +kernel

theorem wit_TheModule_more : ({ State.reset with dev := { DeviceRegs.reset with corrected := #v[0, 3], corrSeen := #v[0, 3] } } : State).parts = [] ∧
    (extended true).frameInUse (2 * 2 ^ 52 + 9 * 2 ^ 30) (2 ^ 30) = false ∧ (9 : Nat) < 2 ^ 22 ∧
    (core3.part? 0).isSome = true ∧ State.reset.cycle = 0 := by decide +kernel

theorem wit_TasksAndPages_more : (wanted (.taskAck 5 none) [] none (some 1000)).canPerform 0 = true ∧
    ({ State.reset with moves := [{ page := 5, dest := 9 }] } : State).l2 = [] ∧ (5 : Nat) ≠ 9 ∧
    ({ State.reset with cycle := 999999 } : State).cycle + 1 = 1000000 ∧ State.reset.mem.wf = true := by decide +kernel

/-! ### Witnesses for the later clauses -/

theorem wit_StepRunsDecoded_turn : (first.strand 0x8000 0).refusalDue = false ∧ (∀ k < 12, (awake.strand 0x8000 k).freeTurn = false) ∧
    (begunWord.strand 0x8000 0).freeTurn = true ∧ (begunWord.strand 0x8000 0).refusalDue = false := by decide +kernel

/-- A dense sequencer in pass 0 of two over one VADD, with a word after the body or none. -/
def passing (w : Nat) : State :=
  let s := (State.reset.withFetchWord 32 0).modStrand 0x8000 0 fun t => { t with pc := 0x100004, rep := some {
    base := 0x100000, words := [0x30A2_4680], stride := 1, mask := 2, pass := 0, remaining := 2, pos := 0, ahead := 0 } }
  { s.hostWrite 0x100008 (leBytes 4 w) with agenda := [] }
/-- The same strand in a partition without a page table. -/
def passingAlone : State := at_ 0x8000 0 (fun t => { t with pc := 0x1004, rep := some { base := 0x1000, words := [0x30A2_4680], stride := 1, mask := 2, pass := 1, remaining := 1, pos := 0, ahead := 0 } }) id
/-- The state after the word of the pass. -/
def passed (s : State) (pc : Addr) : State :=
  after (exec (.vadd 0 5 1 2 6 8) { s with cur := cursorAt 0x8000 0 pc 1 false false none none s.nextRid })

theorem wit_RepStartsPasses_pass : [passing 0x02531C07, passingAlone].all (fun s =>
      let x := s.strand 0x8000 0
      x.live && !x.yielded && !x.refusalDue && !x.freeTurn && s.mayIssue 0x8000 0 && x.rest == [] && x.susp.isNone && x.await.isNone &&
        !x.blocked [wordUses 0x30A2_4680] && !x.counted && (x.rep.map fun r => (r.words.length, r.pos)) == some (1, 0)) = true ∧
    reads 0x30A2_4680 (.vadd 0 5 1 2 6 8) = true ∧
    (passed (passing 0x02531C07) 0x100004).cur.ending = .done ∧ (passed passingAlone 0x1004).cur.ending = .done ∧
    ((passed passingAlone 0x1004).strand 0x8000 0).rep = (passingAlone.strand 0x8000 0).rep ∧
    ((passed passingAlone 0x1004).fetchAt 0x8000 0 0x1008 false).1 = .fault 0x07 0x1008 := by decide +kernel

theorem wit_RepStartsPasses_ahead : ((passed (passing 0x02531C07) 0x100004).fetchAt 0x8000 0 0x100008 false).1 = .words [0x02531C07] ∧
    reads 0x02531C07 (.or 0 5 6 7 0) = true ∧ (wordUses 0x02531C07).cls = .s ∧ (wordUses 0x02531C07).ctl = false ∧
    (((passing 0).strand 0x8000 0).rep.map fun r => meets ((wordUses 0x02531C07).srcs ++ (wordUses 0x02531C07).dsts) r.regs ||
      meets (sysOf 0x02531C07) (r.words.flatMap sysOf)) = some false ∧
    (let t := passed (passing 0x02531C07) 0x100004
      let cur := cursorAt 0x8000 0 0x100008 1 true false (some ((passing 0x02531C07).core 0x8000)) (some (t.partFor 0x8000)) t.nextRid
      let u := after (exec (.or 0 5 6 7 0) { t with cur := cur })
      u.cur.ending == .done && u.cur.late.isEmpty && !flagsTrap (t.strand 0x8000 0).fctl.toNat u.cur.flags &&
        (t.strand 0x8000 0).mid.isNone) = true := by decide +kernel

/-- A message whose handler table entry has no V bit, as memory has none. -/
def unanswered : State := { knocked with mem := [] }

theorem wit_EntriesStartTheHandler_refused : (unanswered.core 3).inbox.length = 1 ∧ unanswered.entriesOpen 3 = true ∧
    (unanswered.core 3).waitingFault = none ∧ (unanswered.core 3).waitingTicket = none ∧
    leNat (unanswered.mem.readN (scratchKey 3 (0x100 + 8 * 2)) 8) / 2 ^ 63 % 2 = 0 ∧ unanswered.dev.sqProd - unanswered.dev.sqCons < 256 := by
  decide

theorem wit_ModesAndContexts_image : (∀ i < 12, (core3.myCore.strand i).pend = []) ∧ (∀ p < 4, (core3.myCore.queues[p]?.getD []).length ≤ 8) ∧
    core3.myCore.inbox.length + core3.myCore.heldIn.length ≤ 32 ∧ core3.sendPort 3 = [] ∧ (∀ k < 8, core3.myCore.binding k = none) ∧
    (core3.myCore.strand 4).live = true ∧ (core3.myCore.tile 5).base < 2 ^ 16 ∧ (core3.myCore.tile 5).bytes < 2 ^ 17 := by decide

/-- Every lane NaN, signalling, with every trap enabled, and the integer lanes of a saturating VMACI. -/
def invalid : State := at_ 3 4 (fun t => (({ t with fctl := 0x3F00 }.setV 1 0x7F8000017F8000017F8000017F800001).setV 2
  0x7F8000017F8000017F8000017F800001).setV 3 0x7FFFFFFF) id
def saturated : State := at_ 3 4 (fun t => (({ t with fctl := 0x3F00 }.setV 1 0x7F).setV 2 0x7F).setV 3 0x7FFFFFFF) id

theorem wit_EnabledFlagTraps_words : invalid.alone = true ∧ invalid.portless = true ∧ saturated.alone = true ∧
    [fSub 8 0 false 0x7F800001 0x7F800001, fMul 8 0 false 0x7F800001 0x7F800001, fMinMax false 8 false 0x7F800001 0x7F800001,
      fMinMax true 8 false 0x7F800001 0x7F800001, fRcp 8 0 false 0x7F800001, fRsq 8 0 false 0x7F800001, fExp2 8 0 false 0x7F800001,
      fLog2 8 0 false 0x7F800001, fFma 8 0 false (fIn 8 false 0x7F800001) (fIn 8 false 0x7F800001) (fIn 8 false 0x7F800001)].all
        (fun r => flagsTrap 0x3F00 r.2) = true ∧
    (laneCmp 8 false 2 0x7F800001 0x7F800001).2 = fNV ∧ (signLane 8 false 0x7F800001 fun n => !n).2 = fNV ∧
    flagsTrap 0x3F00 fISAT = true ∧ cvtPair 8 9 = true ∧ (2 ^ 31 - 1 : Int) < 2 ^ 31 - 1 + 0x7F * 0x7F := by decide +kernel

theorem wit_BundlesAndExposedWrites_rest : (core3.strand 3 4).rest = [] ∧ (1 : BitVec 5) ≠ 2 ∧
    reads 0x82531C07 (.or 1 5 6 7 0) = true := by decide +kernel

theorem wit_SystemRegisters_gaps : 0x00B ≤ (0x00B : BitVec 12).toNat ∧ (0x01F : BitVec 12).toNat ≤ 0x01F ∧ (0x06F : BitVec 12).toNat ≤ 0x06F ∧
    (at_ 3 4 id fun c => { c with regs := { c.regs with claim := some 5 } }).myCore.regs.claim ≠ none := by decide

theorem wit_AccessFaults_walks :
    finds ((mapped 6 0x80_0000_0000 id).resolve ((mapped 6 0x80_0000_0000 id).access false true) 0x80_0000_0000 16) (fun _ _ => true) = false ∧
    (match (mapped 6 0x80_0000_0000 id).resolve ((mapped 6 0x80_0000_0000 id).access true true) 0x80_0000_0000 16 with
      | (.error c, _) => walkFails c && c != heldCause && c % 2 ^ 8 != 0x13
      | _ => false) = true ∧ (mapped 6 0x80_0000_0000 id).portless = true ∧
    (match (regs2 3 4 6 0x20108 7 0).resolve ((regs2 3 4 6 0x20108 7 0).access true false) 0x0100_0000_0000_0010 16 with
      | (.error c, _) => c == 0x07 && !walkFails c
      | _ => false) = true := by decide +kernel

theorem wit_AccessesAtHomes_refusal : (refused.strand 3 4).refusal = none ∧ (refused.strand 3 4).between = true ∧
    (refused.part 0).status ≠ .fatal ∧ ((refused.modStrand 3 4 fun t => { t with inEntry := true }).strand 3 4).inEntry = true := by decide

/-- A load or a store of strand 4 of core 3 to the line of address 0x2008, whose home is core 0; the line is cached or not, and core 5
owns its word or nobody. -/
def lined (op : ReqOp) (cached : Bool) (owned : Bool) : State :=
  let s := asked op
  { s with
    net := s.net.map fun r => { r with home := .line 0x2008 0 0 0, due := none }
    l2 := if cached then [(lineKey 0 0x2008, { data := List.replicate 128 9, dirty := 0, poison := false, victim := false })] else []
    owner := if owned then [(0x401, 5)] else [] }

theorem wit_AccessesAtHomes_lines : [lined (.load 8 0 3 0) true false, lined (.load 8 0 3 2) false false, lined (.load 8 0 3 0) false false,
      lined (.store [1, 2, 3, 4, 5, 6, 7, 8] 0 false) true false, lined (.store [1, 2, 3, 4, 5, 6, 7, 8] 0 false) true true].all (fun s =>
      s.canPerform 0 && s.net.map (·.home) == [.line 0x2008 0 0 0] &&
        (s.strand 3 4).pend == [{ reg := .x 5, rid := 7, val := none, turns := none }] && !s.poison.contains (s.poisonKey 0x2008) &&
        decide ((s.l2.filter fun l => l.1 / 2 ^ 49 == 0 && l2Set (linePa l.1) == l2Set 0x2008).length < s.ways 0)) = true ∧
    effPolicy 0 0 < 2 ∧ 2 ≤ effPolicy 0 2 ∧ 0x2008 % 128 + 8 ≤ 128 ∧
    (∀ m ∈ (lined (.load 8 0 3 0) true false).l2, m.1 % 2 ^ 49 = 0x2008 / 128 → m.1 = lineKey 0 0x2008) ∧
    getKey (lined (.load 8 0 3 0) true true).owner 0x401 = some 5 := by decide +kernel

/-- A strand with a register at an alias window, and one with a request of its core that used a translation. -/
def aliased : State := regs2 3 4 6 0x10100 7 0
def translated : State := { core3 with net := [{ core3.wordRequest (.line 0x2008 0 0 0) (.load 8 0 3 0) 0x2008 none none none with rid := 0 }]
                                       nextRid := 1, cur := { core3.cur with since := 1 } }

theorem wit_FencesAndCacheWords_tlbi : aliased.alone = true ∧ aliasWindow (aliased.me.getX 6) = true ∧ aliased.me.sup = true ∧
    aliased.cur.slot ≠ 11 ∧ translated.alone = true ∧ translated.held = none ∧ translated.translating 0 translated.nextRid = true ∧
    translated.me.sup = true ∧ (2 ^ 56 : Nat) ≤ ((regs2 3 4 6 0x0100_0000_0000_0000 7 0).me.getX 6).toNat := by decide +kernel

theorem wit_FencesAndCacheWords_ship :
    ((mapped 6 0x10_0000_0000 id).paOf ((mapped 6 0x10_0000_0000 id).access false true) 0x10_0000_0000).any
      (fun pa => decide (1 < pa / 2 ^ 52 % 2 ^ 4)) = true ∧ (mapped 6 0x10_0000_0000 id).alone = true ∧
    ((mapped 6 0x100200 id).paOf ((mapped 6 0x100200 id).access false true) 0x100200).any
      (fun pa => decide (1 < pa / 2 ^ 52 % 2 ^ 4)) = false := by decide +kernel

theorem wit_TicketsAreIssued_walks : (holding 3 4 [] id).walkHeld false true 0x400 = false ∧
    (holding 3 4 [] id).walkHeld true false 0x100000 = false ∧ (holding 3 4 [] id).walkHeld false true 0x200000 = false := by decide +kernel

theorem wit_FramesComeAndGo_page : (match leafFrom (pool 2 0 4) 0x10_0000_0000 4 0 ((pool 2 0 4).partFor (pool 2 0 4).cur.cn).root with
      | .ok w => !(pool 2 0 4).pageInUse ((pool 2 0 4).partNo (pool 2 0 4).cur.cn) w.level 0x10_0000_0000
      | .error _ => false) = true := by decide +kernel

/-- A message with another key, from the partition's own core. -/
def refusedMsg : State := { posted 0 [] with net := (posted 0 []).net.map fun r => { r with op := .send (letter 6) } }
/-- A message to a core whose partition has stopped. -/
def quarantinedMsg : State := (posted 0 []).modPart 0 fun x => { x with status := .fatal }

theorem wit_MessagesAreDelivered_refused : refusedMsg.canPerform 0 = true ∧ refusedMsg.net.map (fun r => (r.op, r.part)) = [(.send (letter 6), 0)] ∧
    refusedMsg.quarantined 3 = false ∧ refusedMsg.portFull 3 = false ∧ (letter 6).target.toNat / 2 ^ 48 ≠ (refusedMsg.partFor 3).key ∧
    refusedMsg.alone = true ∧ (refusedMsg.part? 0).isSome = true ∧ (refusedMsg.part 0).eq.drops = 0 ∧
    (refusedMsg.part 0).eq.prod - (refusedMsg.part 0).eq.cons + 2 ≤ 256 ∧ refusedMsg.dev.sqProd - refusedMsg.dev.sqCons < 256 ∧
    quarantinedMsg.canPerform 0 = true ∧ quarantinedMsg.quarantined 3 = true ∧ quarantinedMsg.portFull 3 = false := by decide +kernel

/-- A ticket of strand 4 in slot 5 of a core with the tiles of `tiles`, and bytes in its scratchpad. -/
def running (cn : Nat) (x : Ticket) (bs : List (Nat × List Byte)) : State :=
  let s := at_ cn 4 id fun c => (tiles c).setTicket 5 { x with live := true, running := true, owner := 4, issuer := 4, sup := true }
  { s with mem := bs.foldl (fun m b => m.writeN (scratchKey cn b.1) b.2) s.mem }

/-- The premises of the copying clauses: every unit translates, at both ends, and none is another core's. -/
def unitsOk (s : State) (cn : Nat) (mc : Bool) (src dst : Word) (units : Nat) : Bool :=
  let a := ((s.core cn).ticket 5).access cn (s.partNo cn)
  match targetsOf (fun y va => y.readTarget a va 16) units src s with
  | (.ok gs, v) => match targetsOf (fun y va => y.storeTarget mc a va 16) units dst v with
    | (.ok hs, w) => gs.length == units && hs.length == units && !(gs ++ hs).any Target.far && (w.thirdParty cn (gs.zip hs)).1.isNone
    | _ => false
  | _ => false

def copyCmd : List Byte := leBytes 8 0x1000 ++ leBytes 8 0x3000 ++ leBytes 8 32 ++ leBytes 8 0
def putting : State := running 3 { Ticket.empty with word := encode (.put 0 5 6 1 0), xa := 0x3000, stile := some 1 } []
def copying3 : State := running 3 { Ticket.empty with word := encode (.copy 0 5 6 0 0), cmd := copyCmd } []
def shuffling : State := running 3 { Ticket.empty with
    word := encode (.shuffle 0 5 6 3 0), cmd := [1, 1, 0, 0] ++ leBytes 4 2 ++ leBytes 4 0x800 ++ leBytes 4 0, stile := some 1, dtile := some 3 }
  [(0x800, leBytes 4 7)]

theorem wit_ElementsOfTickets_copies : unitsOk (copying 0x400 32 true) 3 false 0x400 0x3000 2 = true ∧
    unitsOk putting 3 true 0x1000 0x3000 4 = true ∧ ((putting.core 3).ticket 5).armedAt = none ∧
    unitsOk copying3 3 false 0x1000 0x3000 2 = true ∧ leAt copyCmd 16 8 = 32 ∧
    shuffling.pendingTo 3 (.scratch 3 0) = false ∧ leNat (shuffling.scratchBytes 3 0x800 4) = 7 ∧ 7 < 4096 / 32 ∧
    shuffling.locked true 3 0x3000 32 = false ∧ 1 * 32 ≤ ((shuffling.core 3).tile 3).bytes := by decide +kernel

/-- A table of rows of 16 bytes of f32 at 0x9000 of the own scratchpad, for a GATHER and a GATHERP of the identifiers in t1. -/
def tableCmd : List Byte := leBytes 8 0x9000 ++ leBytes 8 64 ++ leBytes 8 (8 * 256) ++ List.replicate 24 0
def gathering (w : Instr) (ids : List Nat) : State := running 3 { Ticket.empty with
    word := encode w, cmd := tableCmd, stile := some 1, stile2 := some 2, dtile := some 3 }
  [(0x1000, ids.flatMap (leBytes 8)), (0x2000, leBytes 4 0 ++ leBytes 4 2 ++ leBytes 4 0xFFFFFFFF), (0x9050, leBytes 4 0x3F800000)]
def gathers (i : Nat) : State := gathering (.gather 0 5 1 0 0 3 0) [i]
def pools : State := gathering (.gatherp 0 5 1 0 0 3 0) [5, 5]
def binding5 (s : State) : Binding :=
  let x := (s.core 3).ticket 5
  { desc := x.cmd, addr := BitVec.ofNat 64 x.descVa, sel := x.sel, ver := fld x.tag.toNat 48 16 }
def keeps5 (s y : State) : Bool := (y.core 3).tickets == (s.core 3).tickets && (y.core 3).tiles == (s.core 3).tiles

theorem wit_ElementsOfTickets_gathers : (binding5 (gathers 5)).rows = 64 ∧ (binding5 (gathers 5)).hmode = false ∧
    (binding5 (gathers 5)).rowBytes = 16 ∧ (gathers 5).tileEntry 3 (some 1) 0 8 = 5 ∧ (gathers 64).tileEntry 3 (some 1) 0 8 = 64 ∧
    (gathers (2 ^ 64 - 1)).tileEntry 3 (some 1) 0 8 = 2 ^ 64 - 1 ∧
    (gathers 5).pendingTo 3 (.scratch 3 0) = false ∧ tableCmd ≠ [] ∧ 16 ≤ (((gathers 5).core 3).tile 3).bytes ∧
    (match (gathers 5).readRow ((((gathers 5).core 3).ticket 5).access 3 0) 0x9050 16 with
      | (.ok bs, v) => bs.length == 16 && keeps5 (gathers 5) v && !v.locked true 3 0x3000 16
      | _ => false) = true ∧ ((binding5 (gathers 5)).rowVa 5) = 0x9050 := by decide +kernel

theorem wit_ElementsOfTickets_pools : bagOffsets (pools.tileBytes 3 ((pools.core 3).tile 2)) = [0, 2] ∧
    (binding5 pools).fmt = 8 ∧ 2 ≤ (idEntries (pools.tileBytes 3 ((pools.core 3).tile 1))).length ∧
    distinctIds (((idEntries (pools.tileBytes 3 ((pools.core 3).tile 1))).drop 0).take 2) = [5] ∧
    (match pools.elementRows 3 5 (binding5 pools) [5] (fun u bs => .ended u bs.length true) with
      | .ended v n _ => n == 16 && keeps5 pools v && !v.locked true 3 0x3000 16
      | _ => false) = true := by decide +kernel

/-- SCATADD of one identifier to a table at physical address 0x100000, on the placed strand. -/
def scattering : State :=
  let desc := leBytes 8 0x100000 ++ leBytes 8 64 ++ leBytes 8 (8 * 256) ++ List.replicate 24 0
  let s := (mapped 6 0 id).modCore 0x8000 fun c => (tiles c).setTicket 5 { Ticket.empty with
    live := true, running := true, sup := true, word := encode (.scatadd 0 5 1 0 2 0), cmd := desc, stile := some 1, stile2 := some 2 }
  { s.modPart 0 fun p => { p with routines := [1] } with mem := s.mem.writeN (scratchKey 0x8000 0x1000) (leBytes 8 5) }

theorem wit_ElementsOfTickets_scatters : scattering.rowSent 0x8000 5 = false ∧ scattering.pendingTo 0x8000 (.scratch 0x8000 0) = false ∧
    scattering.tileEntry 0x8000 (some 1) 0 8 = 5 ∧
    opAccepts ((scattering.part 0).routine 0).1 8 16 = true ∧ contribBytes ((scattering.part 0).routine 0).1 16 ≤ 4096 ∧
    (match targetsOf (fun y va => y.rowTarget (((scattering.core 0x8000).ticket 5).access 0x8000 0) va) 1 0x100050 scattering with
      | (.ok gs, v) => gs.length == 1 && (v.core 0x8000).tickets == (scattering.core 0x8000).tickets &&
          (v.core 0x8000).tiles == (scattering.core 0x8000).tiles
      | _ => false) = true := by decide +kernel

/-- MMUL and MMULS of one row of 32 elements from the operand store, MFETCH of one row, masked or not. -/
def multiplying (w : Instr) : State := running 0x8000 { Ticket.empty with word := encode w, cmd := product 1 0x100000 } []
def fetching (flags : Nat) : State := running 0x8000 { Ticket.empty with
  word := encode (.mfetch 0 5 6 0), cmd := leBytes 8 0x1000 ++ leBytes 4 16 ++ leBytes 4 1 ++ leBytes 4 0x1FFFF0 ++ leBytes 4 0 ++ leBytes 4 0 ++ leBytes 4 flags } []

theorem wit_ElementsOfTickets_products : [(multiplying (.mmul 0 5 6 0), MatKind.dense), (multiplying (.mmuls 0 5 6 0), .sparse)].all (fun e =>
      let a := ((e.1.core 0x8000).ticket 5).access 0x8000 0
      let m := matCmd (product 1 0x100000)
      match e.1.rowPieces 0x8000 a (m.aPiece e.2) 0 128 0 with
      | (.ok (as, _), v) => as.length == 128 && match v.rowPieces 0x8000 a m.bPiece 0 128 0 with
        | (.ok (bl, _), w) => bl.length == 128 && w.mem.wf
        | _ => false
      | _ => false) = true ∧
    fctlMeta ((multiplying (.mmul 0 5 6 0)).core 0x8000 |>.ticket 5).fctl = false ∧
    ((fDec 8 (leNat ((fetching 1).mem.readN (accKey 0x8000 0) 4))).cmp (fDec 8 0) ≤ 0) ∧ (fetchCmd ((fetching 1).core 0x8000 |>.ticket 5).cmd).flags = 1 ∧
    (fetchCmd ((fetching 0).core 0x8000 |>.ticket 5).cmd).flags ≠ 1 ∧
    readsBytes ((fetching 0).readBytes ((((fetching 0).core 0x8000).ticket 5).access 0x8000 0) 0x1000 16)
      (fun bs v => bs.length == 16 && v.mem.wf) = true := by decide +kernel

theorem wit_ElementsOfTickets_moves : (filling 512).pendingTo 0x8000 (.scratch 0x8000 0) = false ∧ (filling 512).mem.wf = true ∧
    (filling 512).locked false 0x8000 0x3000 512 = false ∧ 0x3000 + 512 ≤ 0x10000 := by decide +kernel

/-- Tickets that end by a refusal, by a cancellation, or by an enabled flag. -/
def refused5 : State := ended5.modCore 3 fun c => c.setTicket 5 { c.ticket 5 with answer := some (0x14, leBytes 8 0x400) }
def cancelled5 : State := (copying 0x100000 32 true).modCore 3 fun c => c.setTicket 5 { c.ticket 5 with cxl := true }
def trapped : State :=
  let s := pools.modCore 3 fun c => c.setTicket 5 { c.ticket 5 with fctl := 0x3F00 }
  { s with mem := s.mem.writeN (scratchKey 3 0x9050) (leBytes 4 0x7F800001) }

theorem wit_ElementsOfTickets_stops : ready5 refused5 = true ∧ ((refused5.core 3).ticket 5).ending = some (1, true) ∧
    ((refused5.core 3).ticket 5).answer = some (0x14, leBytes 8 0x400) ∧ refused5.net = [] ∧ plain5 refused5 3 ((refused5.core 3).ticket 5) = true ∧
    ((cancelled5.core 3).ticket 5).cxl = true ∧
    copied cancelled5 (fun e => match e with
      | .fault u c _ => c == 5 && (u.core 3).ticket 5 == (cancelled5.core 3).ticket 5 && plain5 u 3 ((cancelled5.core 3).ticket 5)
      | _ => false) = true := by decide +kernel

theorem wit_ElementsOfTickets_trap : trapped.reachesFar 3 5 = false ∧ plain5 trapped 3 ((trapped.core 3).ticket 5) = true ∧
    copied trapped (fun e => match e with
      | .ended u f _ => flagsTrap 0x3F00 f && (u.core 3).ticket 5 == (trapped.core 3).ticket 5
      | _ => false) = true := by decide +kernel

theorem wit_EnginesTogether_ready : summing.collReady 0 0 = true ∧
    (turning.core 0x8000).rotating.find? (turning.shiftReady 0x8000) = some 5 ∧
    turning.rotTickets 0x8000 5 (matCmd rotating) = [(0x8000, 5), (0x8001, 5)] ∧
    (mcmdOf 0).canPerform 0 = true ∧ (({ mcmdOf 0 with parts := [(0, { part with key := 0 })] } : State).partFor 0x8000).key = 0 := by
  decide +kernel

/-- An armed store in its slot, with a later store of the strand to that home, which has waited for it. -/
def waited : State :=
  let s := wanted (.store [1, 2] 0 false) [] (some 1000) none
  { s with net := s.net ++ [{ s.wordRequest (.scratch 3 0x200) (.store [3] 0 false) 0x200 none none none with rid := 8 }], nextRid := 9 }

theorem wit_RequestsTakeEffect_slots : (waited.net.map fun r => (r.depart, r.due)) = [(some 1000, none), (none, none)] ∧
    waited.net.any (fun r => waited.net.any r.collides) = false ∧
    (let s := wanted (.store [1, 2] 0 false) [] (some 976) (some 1000);
      s.net.any fun r => s.arrivalHeld 0 r || 12 ≤ r.slot) = false ∧
    ((at_ 3 4 (fun t => { t with pend := [{ reg := .x 11, rid := 0, val := some 6, turns := none }] }) id).strand 3 4).mid = none := by decide +kernel

/-- A host function that reaches partition 1 only, and no functions. -/
def elsewhere : State := { hosted id with dev := { (hosted id).dev with function := some 1 } }
def unlinked : State := { hosted id with dev := { (hosted id).dev with linked := false } }

theorem wit_HostRegisters_reach : elsewhere.dev.function = some 1 ∧ elsewhere.part? 0 = some part ∧ part.holds 200 = false ∧
    part.holds 0 = true ∧ unlinked.dev.linked = false ∧ unlinked.part? 0 = some part ∧ part.lcons = 0 ∧
    (0 : Nat) < ((5 : BitVec 64).toNat + 2 ^ 32 - part.lcons) % 2 ^ 32 := by decide +kernel

/-- A saved partition of one dense tile, whose host has rewritten HG3. -/
def savedPart : State := { State.reset with
  parts := [(0, { part with clusters := [], dense := [0], status := .saved, saved := true, hgSet := [2] })] }

theorem wit_PartitionsComeAndGo_restore : savedPart.dev.linked = true ∧ savedPart.dev.function = none ∧
    (savedPart.part? 0).map (·.cores) = some [0x8000] ∧ (savedPart.part 0).hgSet = [2] ∧
    (match (empty fun x => { x with saved := true }).readAreas 0 [] with | .ok (l, _) => l.isEmpty | _ => false) = true ∧
    (hosted fun x => { x with status := .fatal }).dev.linked = true := by decide +kernel

/-! ### Single steps with the results that the spec gives -/

/-- Register s5 after a word of a strand with s6 and s7 set. -/
def s5 (w : Nat) (a b : Word) : Word := (after (exec (instrOf (BitVec.ofNat 32 w)) (regs2 3 4 6 a 7 b))).me.getX 5

/-- The table of R382: mul, mulh, mulh.n, mulh.w and mulh.n.w of 2^64 - 1 and 2. -/
theorem test_mul : [0x02531C02, 0x02531C03, 0x02531E03, 0x02531D03, 0x02531F03].map (fun w => s5 w 0xFFFF_FFFF_FFFF_FFFF 2) =
    [0xFFFF_FFFF_FFFF_FFFE, 0xFFFF_FFFF_FFFF_FFFF, 1, 0xFFFF_FFFF_FFFF_FFFF, 1] := by decide +kernel

/-- The table of R385 to R387: sub, rem, rem.n, popc, rot, shra.w. -/
theorem test_sub_rem : s5 0x02531C01 3 5 = 0xFFFF_FFFF_FFFF_FFFE ∧ s5 0x02531C05 (0 - 7) 2 = 0xFFFF_FFFF_FFFF_FFFF ∧
    s5 0x02531E05 (0 - 7) 2 = 1 ∧ s5 0x02530012 0xF0 0 = 4 := by decide +kernel
theorem test_rot_shra : s5 0x0C5300C8 0x0123_4567_89AB_CDEF 0 = 0xEF01_2345_6789_ABCD ∧
    s5 0x0C530184 0x8000_0010 0 = 0xFFFF_FFFF_F800_0001 := by decide +kernel

/-- R316: add.w of 0x7FFF_FFFF and 1; R349: clz, ctz.w; R352: extr.s; R372: min, of the spec's examples. -/
theorem test_add_w : s5 0x02531D00 0x7FFF_FFFF 1 = 0xFFFF_FFFF_8000_0000 := by decide +kernel
theorem test_count_zeros : s5 0x02530010 0x10000 0 = 47 ∧ s5 0x02530111 0x10000 0 = 16 := by decide +kernel
theorem test_extr : s5 0x105321C4 0x0F90 0 = 0xFFFF_FFFF_FFFF_FFF9 := by decide +kernel
theorem test_min : [Instr.min 0 5 6 7 0 0, .min 0 5 6 7 0 1, .min 0 5 6 7 1 1].map (fun i =>
    (after (exec i (regs2 3 4 6 0x8000_0000 7 1))).me.getX 5) = [1, 0xFFFF_FFFF_8000_0000, 1] := by decide +kernel

/-- R317: addpc at 0x100044 in a bundle from 0x100040. -/
theorem test_addpc : (after (exec (instrOf 0x14800010) { at_ 3 4 id id with cur := { cursor 3 4 with pc := 0x100044, bundle := 0x100040 } })).me.getX 8 =
    0x100084 := by decide +kernel

/-- R371: lhi s8, 2, 0x3FFFF; R363: ins s20, s13, 0, 16; R365: jr s1, s1 at 0x400200. -/
theorem test_lhi : (after (exec (instrOf 0x128BFFFF) core3)).me.getX 8 = 0xFFFF_C000_0000_0000 := by decide +kernel
theorem test_ins : (after (exec (instrOf 0x114693C0) (regs2 3 4 20 0x00090201 13 1))).me.getX 20 = 0x90001 := by decide +kernel
theorem test_jr : (let t := after (exec (instrOf 0x1E108000) { regs2 3 4 1 0x400800 7 0 with cur := { cursor 3 4 with pc := 0x400200, bundle := 0x400200 } });
    (t.me.pc, t.me.getX 1)) = (0x400800, 0x400204) := by decide +kernel

/-- R387: plog p3, p1, p2, 6. -/
theorem test_plog : (after (exec (instrOf 0x163088C0) (at_ 3 4 (fun t => (t.setP 1 0x00FF).setP 2 0x0F0F) id))).me.getP 3 = 0x0FF0 := by
  decide +kernel

/-- R126: qscale.e4m3 s5, s6 on the spec's histogram, for p = 191 and 255. -/
theorem test_qscale : [191, 255].map (fun p => (after (exec (instrOf 0x6AAC00B1) (at_ 0x8000 4 (fun t => t.setX 6 p) fun c =>
    { c with hist := (((c.hist.set 32 6).set 33 5).set 34 3).set 41 2 }))).me.getX 5) = [0x3C800000, 0x40000000] := by decide +kernel

/-- R115: f32 1 + 2^-8 to bf16 by .sr with r = 0x7FFF and 0x8000 (the word of R97's example). -/
theorem test_vcvt_sr : [0x7FFF, 0x8000].map (fun r =>
    let t := after (exec (instrOf 0x386B1322) (at_ 3 4 (fun t => ((t.setV 5 0x3F808000).setV 9 r).setP 2 0xFFFF) id));
    ((t.me.getV 3).toNat % 2 ^ 16, t.me.flags)) = [(0x3F80, 1), (0x3F81, 1)] := by decide +kernel

/-- R119, R120: lane 0 of VMACI.i8, saturating and wrapping. -/
theorem test_vmaci : [0, 1].map (fun w =>
    let t := after (exec (.vmaci 0 3 1 2 w 0 31) (at_ 3 4 (fun t => ((t.setV 3 0x7FFFFD78).setV 1 0x807F).setV 2 0x7F7F) id));
    ((t.me.getV 3).toNat % 2 ^ 32, t.me.flags.toNat / 2 ^ 5 % 2)) = [(0x7FFFC07F, 1), (0x7FFFFCF9, 0)] := by decide +kernel

/-- R419: vcmp.lt.f32 p5, v1, v2, ?p6. -/
theorem test_vcmp : (let t := after (exec (instrOf 0x34A24682) (at_ 3 4 (fun t =>
      (((t.setV 1 0x40400000_80000000_7FC00000_3F800000).setV 2 0x3F800000_00000000_3F800000_40000000).setP 6 7).setP 5 0xFFFF) id));
    (t.me.getP 5, t.me.flags)) = (9, 0x10) := by decide +kernel

/-- R116, R117, R406: stv v1, 0(s8) through window 1. -/
theorem test_stv : (let t := after (exec (.stv 0 1 8 0 0) (at_ 3 4 (fun t =>
      (t.setV 1 0x00000001_7F7FFFFF_3F808000_C0000000).setX 8 0x10100) id));
    (t.net.map (fun r => match r.op with
      | .store bs _ _ => leNat bs
      | _ => 0), t.me.flags)) = ([0x00007F803F80C000], 7) := by decide +kernel

/-- R362: idsort s14, t3, t1, t4 on 9, 3, 9, NONE. -/
theorem test_idsort : (let s := at_ 3 4 id fun c =>
      let t (st : TileState) (base bytes : Nat) : Tile := { readers := 0, st := st, bytes := bytes, base := base }
      ((c.setTile 1 (t .ready 0x1000 32)).setTile 3 (t .filling 0x2000 64)).setTile 4 (t .filling 0x3000 16)
    let ids := leBytes 8 9 ++ leBytes 8 3 ++ leBytes 8 9 ++ leBytes 8 (2 ^ 64 - 1)
    let t := after (exec (instrOf 0x44E09060) { s with mem := s.mem.writeN (scratchKey 3 0x1000) ids })
    (t.me.getX 14, (List.range 4).map fun i => leNat (t.mem.readN (scratchKey 3 (0x3000 + 4 * i)) 4))) = (2, [1, 0, 1, 0xFFFFFFFF]) := by
  decide +kernel

/-- R123: the bag 3, 7, 9 of R123; R229: the sum of 2^24, 1.0 and 1.0 over three members. -/
theorem test_pooling : poolElem 9 false 3 [(0x3F80, 1), (0x3F80, 1), (0x4B80, 1)] = (0x4B800001, 0) := by decide +kernel
theorem test_collective : collResult 0 [leBytes 4 0x4B800000, leBytes 4 0x3F800000, leBytes 4 0x3F800000] = (leBytes 4 0x4B800000, 1) := by
  decide +kernel

/-- R135 to R138: the home of the region 0x0 address 0xB_5AA9_5540. -/
theorem test_home : State.reset.pcOf 0xB5AA95540 = 842 ∧ stripedLa 0xB5AA95540 = 0x02D6AA40 ∧
    State.reset.homeOf Machine.Part.none 0xB5AA95540 0 = some 0x6429 := by decide +kernel

/-- R237, R344: the control value 0xF5 at port W of the bundle at 0x600200. -/
theorem test_control : (let s := { ported [] 0 with cur := { cursor 40 4 with pc := 0x600200, bundle := 0x600200 } }
    ((s.modMyCore fun c => { c with queues := c.queues.setIfInBounds 3 [{ tag := true, val := 0xF5 }] }).takeControl 3).myCore.regs.qcode) = 0x600203F5 := by
  decide +kernel

/-- R51, R6, R288: the machine right after reset; a step from there with nothing placed; a step of a placed word. -/
theorem test_reset : State.reset.powered = true ∧ State.reset.parts = [] ∧ State.reset.mem = [] ∧
    (State.reset.partOf? 3).isNone = true := by decide
theorem test_step : (after (step ((State.reset.withFetchWord 32 0x02531C01).modStrand 0x8000 0 fun t => (t.setX 6 3).setX 7 5)) |>.strand 0x8000 0).getX 5 =
    0xFFFF_FFFF_FFFF_FFFE := by decide +kernel

end Sys2Proof.Tests
end

section
namespace Sys2Proof.Machine

/-! ### The authority of the executing strand -/

/-- What a strand may do (R29, R44, R264): its key, its mode, and the task half of its stream identity. -/
def Strand.standing (t : Strand) : Word × Bool × Nat := (t.rkey, t.sup, t.sid.toNat / 2 ^ 32)

/-- The registers of a core that only supervisor mode writes (R57); the others are blank. -/
def CoreRegs.guarded (r : CoreRegs) : CoreRegs :=
  { CoreRegs.reset with
    htab := r.htab, fhnd := r.fhnd, wdog := r.wdog, ctxbase := r.ctxbase, perm := r.perm, bdtab := r.bdtab, sltab := r.sltab }

/-- The registers of a partition that only supervisor mode or the host writes (R57). -/
def Part.guarded (x : Part) : Word × Word × Word × Vector Word 7 := (x.ptroot, x.fpool, x.alist, x.hg)

/-- The guarded part of a core, for the strand in a slot. -/
def Core.standing (c : Core) (slot : Nat) : (Word × Bool × Nat) × CoreRegs := ((c.strand slot).standing, c.regs.guarded)

/-- All that the words of a user-mode strand leave as it is, and where the strand runs. -/
structure Authority where
  cn : Nat
  slot : Nat
  core : (Word × Bool × Nat) × CoreRegs
  part : Nat
  regs : Word × Word × Word × Vector Word 7

/-- The authority of the executing strand. -/
def State.authority (s : State) : Authority :=
  { cn := s.cur.cn, slot := s.cur.slot, core := s.myCore.standing s.cur.slot, part := s.partNo s.cur.cn
    regs := (s.partFor s.cur.cn).guarded }

/-- An authority but for the mode and the task, which NEXT takes from a task record (R44). -/
def Authority.lasting (a : Authority) : Authority := { a with core := ((a.core.1.1, false, 0), a.core.2) }

/-! ### Strands and cores -/

@[simp] theorem Strand.standing_setReg (t : Strand) (r : Reg) (v : BitVec 128) : (t.setReg r v).standing = t.standing := by
  simp [Strand.standing]

theorem Strand.standing_foldl {α : Type} (f : Strand → α → Strand) (hf : ∀ t a, (f t a).standing = t.standing) (l : List α)
    (t : Strand) : (l.foldl f t).standing = t.standing := by
  induction l generalizing t with
  | nil => rfl
  | cons a r ih => rw [List.foldl_cons, ih, hf]

@[simp] theorem Strand.standing_tick (t : Strand) : t.tick.standing = t.standing :=
  Strand.standing_foldl _ (fun _ _ => Strand.standing_setReg ..) _ _

@[simp] theorem Strand.standing_dropMid (t : Strand) : t.dropMid.standing = t.standing := by
  unfold Strand.dropMid
  split <;> rfl

theorem Core.strand_setStrand_cases (c : Core) (i k : Nat) (t : Strand) :
    (c.setStrand i t).strand k = c.strand k ∨ k = i ∧ (c.setStrand i t).strand k = t := by
  by_cases h : i = k
  · subst h
    by_cases hb : i < 12 <;> simp [Core.strand, Core.setStrand, hb]
  · exact Or.inl (Core.strand_setStrand_other c t (Ne.symm h))

theorem Core.standing_setStrand {c : Core} {i k : Nat} {t : Strand} (h : k = i → t.standing = (c.strand k).standing) :
    (c.setStrand i t).standing k = c.standing k := by
  rcases c.strand_setStrand_cases i k t with e | ⟨hk, e⟩
  · simp [Core.standing, e]
  · simp [Core.standing, e, h hk]

/-- A map over the strands that keeps the standing of each. -/
theorem Core.standing_mapStrands {c d : Core} {f : Strand → Strand} (hs : d.strands = c.strands.map f) (hr : d.regs = c.regs)
    (h : ∀ t, (f t).standing = t.standing) (k : Nat) : d.standing k = c.standing k := by
  simp only [Core.standing, Core.strand, hs, hr]
  by_cases hk : k < 12 <;> simp [hk, h]

theorem Core.standing_foldl {α : Type} (f : Core → α → Core) (hf : ∀ c a k, (f c a).standing k = c.standing k) (l : List α)
    (c : Core) (k : Nat) : (l.foldl f c).standing k = c.standing k := by
  induction l generalizing c with
  | nil => rfl
  | cons a r ih => rw [List.foldl_cons, ih, hf]

@[simp] theorem Core.standing_takeFor (c : Core) (d : Option Nat) (l : List Nat) (b : Bool) (k : Nat) :
    (c.takeFor d l b).standing k = c.standing k := by
  unfold Core.takeFor
  exact (Core.standing_foldl _ (fun _ _ _ => by rfl) _ _ _).trans (by split <;> rfl)

@[simp] theorem Core.standing_giveBack (c : Core) (d : Option Nat) (l : List Nat) (b : Bool) (k : Nat) :
    (c.giveBack d l b).standing k = c.standing k := by
  unfold Core.giveBack
  exact (Core.standing_foldl _ (fun _ _ _ => by rfl) _ _ _).trans (by split <;> rfl)

@[simp] theorem Core.standing_giveTiles (c : Core) (slot k : Nat) : (c.giveTiles slot).standing k = c.standing k := by
  unfold Core.giveTiles
  refine Core.standing_foldl _ (fun c a k => ?_) _ _ _
  split
  · exact Core.standing_giveBack ..
  · rfl

@[simp] theorem Core.standing_fatal (c : Core) (k : Nat) : c.fatal.standing k = c.standing k :=
  Core.standing_mapStrands (c := c) (d := c.fatal) (f := Strand.abandon) rfl rfl (fun _ => rfl) k

/-! ### Cores and strands of the device -/

theorem State.authority_congr {s t : State} (hn : t.cur.cn = s.cur.cn) (hs : t.cur.slot = s.cur.slot)
    (hc : t.myCore.standing s.cur.slot = s.myCore.standing s.cur.slot) (hp : t.parts = s.parts) : t.authority = s.authority := by
  simp [State.authority, State.partFor, State.part, State.part?, State.partNo, State.partOf?, hn, hs, hc, hp]

theorem State.authority_setCore {s : State} {n : Nat} {c : Core}
    (h : n = s.cur.cn → c.standing s.cur.slot = s.myCore.standing s.cur.slot) : (s.setCore n c).authority = s.authority := by
  refine State.authority_congr rfl rfl ?_ rfl
  by_cases hn : s.cur.cn = n
  · subst hn
    simpa [State.myCore] using h rfl
  · simp [State.myCore, State.core_setCore_other s c hn]

theorem State.authority_modCore {s : State} {n : Nat} {f : Core → Core} (h : ∀ c k, (f c).standing k = c.standing k) :
    (s.modCore n f).authority = s.authority :=
  State.authority_setCore fun hn => by rw [h, hn]; rfl

theorem State.authority_modMyCore {s : State} {f : Core → Core} (h : ∀ c k, (f c).standing k = c.standing k) :
    (s.modMyCore f).authority = s.authority := State.authority_modCore h

theorem State.authority_modStrand {s : State} {n i : Nat} {f : Strand → Strand}
    (h : n = s.cur.cn → s.cur.slot = i → (f (s.strand n i)).standing = (s.strand n i).standing) :
    (s.modStrand n i f).authority = s.authority :=
  State.authority_setCore fun hn => by
    subst hn
    exact Core.standing_setStrand fun hi => by rw [h rfl hi, hi]; rfl

theorem State.authority_modMe {s : State} {f : Strand → Strand} (h : ∀ t, (f t).standing = t.standing) :
    (s.modMe f).authority = s.authority := State.authority_modStrand fun _ _ => h _

theorem State.authority_foldl {α : Type} (f : State → α → State) (hf : ∀ t a, (f t a).authority = t.authority) (l : List α)
    (s : State) : (l.foldl f s).authority = s.authority := by
  induction l generalizing s with
  | nil => rfl
  | cons a r ih => rw [List.foldl_cons, ih, hf]

theorem State.authority_of_eq {α : Type} {s t : State} {p : α × State} {x : α} (h : p = (x, t)) (hp : p.2.authority = s.authority) :
    t.authority = s.authority := by
  subst h
  exact hp

/-! ### Partitions -/

theorem mem_of_getKey {β : Type} {m : List (Nat × β)} {a : Nat} {x : β} (h : getKey m a = some x) : (a, x) ∈ m := by
  induction m with
  | nil => simp [getKey] at h
  | cons c r ih =>
    obtain ⟨k, v⟩ := c
    simp only [getKey] at h
    split at h
    · simp_all
    · exact List.mem_cons_of_mem _ (ih h)

/-- The first key whose entry has a property stays the first when an entry of that key, or of none with the property, is replaced by one
that has the property just if the old one has it. -/
theorem find_putKey {β : Type} {m : List (Nat × β)} {a : Nat} {x y : β} {p : β → Bool} (hx : getKey m a = some x) (hp : p y = p x)
    (ha : ∀ k, (m.find? fun c => p c.2).map (·.1) = some k → k = a) :
    ((putKey m a y).find? fun c => p c.2).map (·.1) = (m.find? fun c => p c.2).map (·.1) := by
  induction m with
  | nil => simp [getKey] at hx
  | cons c r ih =>
    obtain ⟨k, v⟩ := c
    simp only [putKey]
    split
    · rw [List.find?_cons]
      split
      · next hy =>
        have hy : p x = true := hp ▸ hy
        cases hf : ((k, v) :: r).find? fun c => p c.2 with
        | none => exact absurd (List.find?_eq_none.1 hf (a, x) (mem_of_getKey hx)) (by simp [hy])
        | some q => simp [ha q.1 (by rw [hf]; rfl)]
      · rfl
    · split
      · next h =>
        subst h
        have hv : v = x := by simpa [getKey] using hx
        simp only [List.find?_cons, hp, hv]
        split <;> rfl
      · next hlt hne =>
        rw [List.find?_cons] at ha ⊢
        rw [List.find?_cons]
        split
        · rfl
        · next hv =>
          simp only [hv] at ha
          exact ih (by simpa [getKey, Ne.symm hne] using hx) ha

/-- A change of the executing core's partition that keeps its cores and its guarded registers. -/
theorem State.authority_modPart {s : State} {p : Nat} {f : Part → Part} (hp : p = s.partNo s.cur.cn)
    (hc : ∀ x cn, (f x).holds cn = x.holds cn) (hg : ∀ x, (f x).guarded = x.guarded) : (s.modPart p f).authority = s.authority := by
  subst hp
  unfold State.modPart
  split
  · rfl
  · next x hx =>
    have hno : ∀ k, s.partOf? s.cur.cn = some k → k = s.partNo s.cur.cn := fun k h => by simp [State.partNo, h]
    have hof : (s.setPart (s.partNo s.cur.cn) (f x)).partOf? s.cur.cn = s.partOf? s.cur.cn :=
      find_putKey (m := s.parts) (p := fun y : Part => y.holds s.cur.cn) (y := f x) hx (hc x _) hno
    have hpn : (s.setPart (s.partNo s.cur.cn) (f x)).partNo s.cur.cn = s.partNo s.cur.cn := by rw [State.partNo, hof]; rfl
    have hpf : ((s.setPart (s.partNo s.cur.cn) (f x)).partFor s.cur.cn).guarded = (s.partFor s.cur.cn).guarded := by
      rw [State.partFor, hpn, State.partFor, State.part, State.part, hx]
      simp [State.part?, State.setPart, hg]
    simp only [State.authority, State.setPart_cur, hpn, hpf]
    rfl

end Sys2Proof.Machine
end

section
namespace Sys2Proof.Machine

/-! ### Registers, requests and notes of the executing strand -/

@[simp] theorem State.authority_setEnding (s : State) (e : Ending) : (s.setEnding e).authority = s.authority := rfl
@[simp] theorem State.authority_jump (s : State) (a : Addr) : (s.jump a).authority = s.authority := rfl
@[simp] theorem State.authority_choose (s : State) (n : Nat) : (s.choose n).2.authority = s.authority := rfl
@[simp] theorem State.authority_note (s : State) (h : Hold) : (s.note h).authority = s.authority :=
  State.authority_modMe fun _ => rfl
@[simp] theorem State.authority_unhold (s : State) : s.unhold.authority = s.authority := State.authority_modMe fun _ => rfl
@[simp] theorem State.authority_orFlags (s : State) (f : Nat) : (s.orFlags f).authority = s.authority :=
  State.authority_modMe fun _ => rfl
@[simp] theorem State.authority_disarm (s : State) : s.disarm.authority = s.authority := State.authority_modMe fun _ => rfl
@[simp] theorem State.authority_pendOn (s : State) (rid : Nat) (rs : List Reg) (b : Bool) : (s.pendOn rid rs b).authority = s.authority :=
  State.authority_modMe fun _ => rfl

@[simp] theorem State.authority_setReg (s : State) (l : Nat) (r : Reg) (v : BitVec 128) : (s.setReg l r v).authority = s.authority := by
  unfold State.setReg
  split
  · split
    · rfl
    · exact State.authority_modMe fun _ => rfl
  · exact State.authority_modMe fun _ => Strand.standing_setReg ..

@[simp] theorem State.authority_setX (s : State) (l : Nat) (r : BitVec 5) (v : Word) : (s.setX l r v).authority = s.authority :=
  State.authority_setReg ..
@[simp] theorem State.authority_setP (s : State) (l r : Nat) (v : PWord) : (s.setP l r v).authority = s.authority :=
  State.authority_setReg ..

@[simp] theorem State.authority_send (s : State) (rs : List Req) : (s.send rs).authority = s.authority :=
  State.authority_foldl _ (fun _ _ => by rfl) _ _

@[simp] theorem State.authority_sendTo (s : State) (h : Home) (op : ReqOp) (va : Word) (og depart : Option Nat) :
    (s.sendTo h op va og depart).authority = s.authority := State.authority_send ..

@[simp] theorem State.authority_acquire (s : State) (cn scope : Nat) : (s.acquire cn scope).authority = s.authority := by
  unfold State.acquire
  split
  · rfl
  · exact State.authority_modCore fun _ _ => rfl

/-! ### Neighbour ports -/

@[simp] theorem State.authority_push (s : State) (p : Nat) (e : QEntry) : (s.push p e).authority = s.authority := by
  unfold State.push
  split
  · rfl
  · exact State.authority_modCore fun _ _ => rfl

@[simp] theorem State.authority_putPort (s : State) (p : Nat) (e : QEntry) : (s.putPort p e).authority = s.authority := by
  unfold State.putPort
  split
  · rfl
  · exact State.authority_push ..

@[simp] theorem State.authority_setV (s : State) (l : Nat) (r : BitVec 4) (v : VWord) : (s.setV l r v).authority = s.authority := by
  unfold State.setV
  split
  · exact State.authority_putPort ..
  · exact State.authority_setReg ..

@[simp] theorem State.authority_pop (s : State) (p : Nat) : (s.pop p).authority = s.authority :=
  State.authority_modMyCore fun _ _ => rfl

/-! ### Error records and the fatal stop -/

@[simp] theorem State.authority_hostWrite (s : State) (pa : Nat) (bs : List Byte) : (s.hostWrite pa bs).authority = s.authority := rfl

theorem authority_putRecords (rs : List (List Byte)) (base : Word) (a : State × Queue) :
    (rs.foldl (fun (a : State × Queue) r => putRecord a.1 base a.2 r) a).1.authority = a.1.authority := by
  induction rs generalizing a with
  | nil => rfl
  | cons r rs ih => exact (ih _).trans (State.authority_hostWrite ..)

theorem authority_pushRecords (s : State) (base : Word) (q : Queue) (rs : List (List Byte)) :
    (pushRecords s base q rs).1.authority = s.authority := by
  unfold pushRecords
  split
  next h =>
  split at h
  · obtain ⟨rfl, -⟩ := Prod.mk.inj h
    split
    · rfl
    · exact authority_putRecords ..
  · obtain ⟨rfl, -⟩ := Prod.mk.inj h
    split
    · rfl
    · exact authority_putRecords ..

/-- A report of the executing core's partition. -/
theorem State.authority_report {s : State} {p : Nat} (rs : List (List Byte)) (hp : p = s.authority.part) :
    (s.report p rs).authority = s.authority := by
  unfold State.report
  split
  · rfl
  · next x hx =>
    have h := authority_pushRecords s (Config.partEqBase p) x.eq rs
    refine (State.authority_modPart ?_ (fun _ _ => by rfl) (fun _ => by rfl)).trans h
    exact hp.trans (congrArg Authority.part h).symm

theorem State.authority_halt {s : State} {p : Nat} (hp : p = s.authority.part) : (s.halt p).authority = s.authority := by
  unfold State.halt
  split
  · rfl
  · next x hx =>
    have h : (x.cores.foldl (fun t cn => t.modCore cn Core.fatal) s).authority = s.authority :=
      State.authority_foldl _ (fun _ _ => State.authority_modCore fun _ _ => Core.standing_fatal ..) _ _
    rw [State.authority_send]
    refine (State.authority_modPart ?_ (fun _ _ => by rfl) (fun _ => by rfl)).trans h
    exact hp.trans (congrArg Authority.part h).symm

theorem State.authority_fatalStop {s : State} {p : Nat} (c cn k : Nat) (pc : Addr) (a : Nat) (hp : p = s.authority.part) :
    (s.fatalStop p c cn k pc a).authority = s.authority := by
  unfold State.fatalStop
  split
  · rfl
  · have h := State.authority_halt hp
    exact (State.authority_report _ (hp.trans (congrArg Authority.part h).symm)).trans h

/-! ### How a word ends -/

/-- An exception of the executing core's strand. -/
theorem State.authority_takeException {s : State} {cn : Nat} (k c : Nat) (a : Word) (pc r : Addr) (hn : cn = s.authority.cn) :
    (s.takeException cn k c a pc r).authority = s.authority := by
  subst hn
  unfold State.takeException
  split
  · exact State.authority_fatalStop _ _ _ _ _ rfl
  · split
    · exact State.authority_fatalStop _ _ _ _ _ rfl
    · refine (State.authority_modStrand fun _ _ => ?_).trans (State.authority_modCore fun _ _ => Core.standing_giveTiles ..)
      exact Strand.standing_dropMid _

theorem State.authority_raise (s : State) (c : Nat) (a : Word) : (s.raise c a).authority = s.authority := by
  have h : (s.takeException s.cur.cn s.cur.slot c a s.cur.bundle (s.cur.resume c)).authority = s.authority :=
    State.authority_takeException _ _ _ _ _ rfl
  unfold State.raise
  split
  · exact h
  · exact (State.authority_modMe Strand.standing_tick).trans h

theorem State.authority_commit (s t : State) (f : Nat) :
    (s.commit t f).authority = s.authority ∨ (s.commit t f).authority = t.authority := by
  unfold State.commit
  split
  · exact Or.inl (State.authority_raise ..)
  · exact Or.inr (State.authority_modMe fun _ => rfl)

theorem State.authority_takeControl (s : State) (p : Nat) : (s.takeControl p).authority = s.authority := by
  unfold State.takeControl
  dsimp only
  split
  · exact State.authority_raise ..
  · refine (State.authority_modMe fun _ => by rfl).trans ((State.authority_modMyCore fun _ _ => by rfl).trans ?_)
    exact State.authority_modMyCore fun _ _ => Core.standing_giveTiles ..

/-- Every state with which a word can end has an authority that `ok` admits. -/
def Res.Within (ok : Authority → Prop) (s : State) : Res → Prop
  | .done t _ | .late t _ _ _ => ok t.authority
  | .start a => ok (s.begin a).authority
  | _ => ok s.authority

/-- A word leaves the authority of its strand as it is. -/
abbrev Res.Keeps (s : State) (r : Res) : Prop := r.Within (· = s.authority) s

/-- The next state of an outcome has an authority that `ok` admits. -/
def Within (ok : Authority → Prop) (o : Out) : Prop := ∀ t, o = .next t → ok t.authority

/-- An outcome leaves the authority of the executing strand as it is. -/
abbrev Keeps (s : State) (o : Out) : Prop := Within (· = s.authority) o

theorem Res.Within.settle {ok : Authority → Prop} {s : State} {r : Res} (h : r.Within ok s) (hs : ok s.authority)
    (hn : ∀ a, ok a → a.cn = s.authority.cn) : Machine.Within ok (s.settle r) := by
  have done (t : State) (f : Nat) (ht : ok t.authority) : ok (s.commit t f).authority := by
    rcases s.authority_commit t f with e | e <;> rw [e] <;> assumption
  intro t ht
  obtain rfl := Host.Outcome.next.inj ht
  cases r with
  | done t f =>
    dsimp only
    split
    · exact h
    · exact done t f h
  | late t f c a =>
    dsimp only
    split
    · exact h
    · split
      · have hu := done t f h
        have e := State.authority_takeException (cn := s.cur.cn) s.cur.slot c a s.cur.bundle s.cur.after (hn _ hu).symm
        rwa [State.authority_setEnding, e]
      · exact done t f h
  | trap c a =>
    dsimp only
    split
    · exact hs
    · rw [State.authority_setEnding]
      split
      · exact hs
      · rwa [State.authority_raise]
  | wait => exact hs
  | mark k => simpa using hs
  | start a => exact h
  | control p =>
    dsimp only
    rw [State.authority_setEnding]
    split
    · exact hs
    · rwa [State.authority_takeControl]

theorem Res.Keeps.settle {s : State} {r : Res} (h : r.Keeps s) : Machine.Keeps s (s.settle r) :=
  Res.Within.settle h rfl (fun _ h => h ▸ rfl)

end Sys2Proof.Machine
end

section
namespace Sys2Proof.Machine

/-! ### Lines, storage and ownership at the homes -/

@[simp] theorem State.authority_setPoison (s : State) (pa : Nat) (p : Bool) : (s.setPoison pa p).authority = s.authority := rfl
@[simp] theorem State.authority_dropLine (s : State) (k : Nat) : (s.dropLine k).authority = s.authority := rfl

@[simp] theorem State.authority_writeBack (s : State) (k : Nat) : (s.writeBack k).authority = s.authority := by
  unfold State.writeBack
  split
  · rfl
  · split <;> rfl

@[simp] theorem State.authority_fill (s : State) (home pa pol : Nat) : (s.fill home pa pol).authority = s.authority := by
  unfold State.fill
  dsimp only
  split
  · rfl
  · split
    · rfl
    · split
      · rfl
      · exact State.authority_writeBack ..

@[simp] theorem State.authority_readLine (s : State) (home pa n eff : Nat) : (s.readLine home pa n eff).2.authority = s.authority := by
  unfold State.readLine
  dsimp only
  split <;> dsimp only <;> split <;> simp

@[simp] theorem State.authority_writeStorage (s : State) (pa : Nat) (bs : List Byte) : (s.writeStorage pa bs).authority = s.authority := by
  unfold State.writeStorage
  dsimp only
  split <;> rfl

@[simp] theorem State.authority_writeLine (s : State) (home pa : Nat) (bs : List Byte) (eff : Nat) :
    (s.writeLine home pa bs eff).authority = s.authority := by
  have h : (if eff < 2 then s.fill home pa eff else s).authority = s.authority := by split <;> simp
  unfold State.writeLine
  dsimp only
  split
  · exact (State.authority_writeStorage ..).trans h
  · split
    · exact (State.authority_writeStorage ..).trans h
    · exact h

@[simp] theorem State.authority_countAt (s : State) (cn : Nat) (h : Home) : (s.countAt cn h).authority = s.authority := by
  unfold State.countAt
  split
  · split <;> rfl
  · rfl

@[simp] theorem State.authority_farRefuses (s : State) (h : Home) : (s.farRefuses h).2.authority = s.authority := by
  unfold State.farRefuses
  split <;> rfl

@[simp] theorem State.authority_readHome (s : State) (h : Home) (n eff : Nat) : (s.readHome h n eff).2.authority = s.authority := by
  unfold State.readHome
  split <;> simp

@[simp] theorem State.authority_writeHome (s : State) (h : Home) (bs : List Byte) (eff : Nat) :
    (s.writeHome h bs eff).authority = s.authority := by
  unfold State.writeHome
  split
  case h_4 => exact State.authority_writeLine ..
  all_goals rfl

@[simp] theorem State.authority_nearRoom (s : State) (cn line : Nat) : (s.nearRoom cn line).authority = s.authority := by
  unfold State.nearRoom
  dsimp only
  split
  · rfl
  · exact State.authority_modCore fun _ _ => by rfl

@[simp] theorem State.authority_nearOwn (s : State) (cn home : Nat) (ws : List Nat) : (s.nearOwn cn home ws).authority = s.authority := by
  unfold State.nearOwn
  split
  · rfl
  · split
    · rfl
    · split
      · rfl
      · exact (State.authority_modCore fun _ _ => by rfl).trans (State.authority_nearRoom ..)

@[simp] theorem State.authority_takeWords (s : State) (part src slot : Nat) (w : Option Nat) (home pa n : Nat) (og : Option Nat) :
    (s.takeWords part src slot w home pa n og).authority = s.authority := by
  unfold State.takeWords
  dsimp only
  split
  · split
    · rw [State.authority_nearOwn]
      exact (State.authority_foldl _ (fun _ _ => by rfl) _ _).trans (State.authority_send ..)
    · exact (State.authority_foldl _ (fun _ _ => by rfl) _ _).trans (State.authority_send ..)
  · exact (State.authority_foldl _ (fun _ _ => by rfl) _ _).trans (State.authority_send ..)

@[simp] theorem State.authority_ownAt (s : State) (part src slot : Nat) (w : Option Nat) (h : Home) (n : Nat) (og : Option Nat) :
    (s.ownAt part src slot w h n og).authority = s.authority := by
  unfold State.ownAt
  split
  · exact State.authority_takeWords ..
  · rfl

@[simp] theorem State.authority_writeUnit (s : State) (a : Access) (slot : Nat) (g : Target) (bs : List Byte) :
    (s.writeUnit a slot g bs).authority = s.authority := by
  simp [State.writeUnit]

@[simp] theorem State.authority_writeScratch (s : State) (cn off : Nat) (bs : List Byte) :
    (s.writeScratch cn off bs).authority = s.authority := rfl

/-! ### Translation -/

@[simp] theorem State.authority_cacheWalk (s : State) (a : Access) (va : Nat) (w : Walk) : (s.cacheWalk a va w).authority = s.authority :=
  State.authority_modCore (s := s) (n := a.cn) (f := fun c => { c with microTlb := _ }) fun _ _ => by rfl

@[simp] theorem State.authority_translate (s : State) (a : Access) (va : Nat) : (s.translate a va).2.authority = s.authority := by
  let full : Except Nat (Nat × Nat) × State :=
    match s.walk a.part va with
    | .error c => (.error c, s)
    | .ok w => if refuses a w.pte then (.error 0x07, s) else (.ok (w.pte, w.level), s.cacheWalk a va w)
  have hf : full.2.authority = s.authority := by
    dsimp only [full]
    split
    · rfl
    · split <;> simp
  unfold State.translate
  dsimp only
  split
  · exact hf
  · split
    · exact hf
    · split
      · rfl
      · split
        · exact hf
        · split
          · exact hf
          · split
            · exact hf
            · exact State.authority_cacheWalk ..

@[simp] theorem State.authority_resolve (s : State) (a : Access) (va : Word) (n : Nat) : (s.resolve a va n).2.authority = s.authority := by
  have h := s.authority_translate a va.toNat
  unfold State.resolve
  dsimp only
  split
  · rfl
  · split
    · rfl
    · split <;> exact State.authority_of_eq ‹_› h

/-! ### Reads and writes through the page table -/

@[simp] theorem State.authority_readUnit (s : State) (a : Access) (va : Word) (n : Nat) :
    (s.readUnit a va n).2.authority = s.authority := by
  have h := s.authority_resolve { a with rd := true, wr := false } va n
  unfold State.readUnit
  split
  · exact State.authority_of_eq ‹_› h
  · next g t e =>
    have ht := State.authority_of_eq e h
    split
    · exact ht
    · split
      · exact ht
      · split
        · exact ht
        · dsimp only
          split
          · simpa using ht
          · split <;> simpa using ht

@[simp] theorem State.authority_readVa (s : State) (a : Access) (va : Word) (k n : Nat) :
    (s.readVa a va k n).2.authority = s.authority := by
  induction k generalizing s va n with
  | zero => rfl
  | succ k ih =>
    unfold State.readVa
    dsimp only
    split
    · rfl
    · have h := s.authority_readUnit a va (min n (16 - va.toNat % 16))
      split
      · exact State.authority_of_eq ‹_› h
      · next bs t e =>
        have ht := State.authority_of_eq e h
        split <;> exact State.authority_of_eq ‹_› ((ih ..).trans ht)

@[simp] theorem State.authority_readBytes (s : State) (a : Access) (va : Word) (n : Nat) :
    (s.readBytes a va n).2.authority = s.authority := State.authority_readVa ..

@[simp] theorem State.authority_readStrand (s : State) (va : Word) (n : Nat) : (s.readStrand va n).2.authority = s.authority :=
  State.authority_readBytes ..

@[simp] theorem State.authority_writeTarget (s : State) (a : Access) (va : Word) (n : Nat) :
    (s.writeTarget a va n).2.authority = s.authority := by
  have h := s.authority_resolve { a with rd := false, wr := true } va n
  unfold State.writeTarget State.unitTarget
  split
  · exact State.authority_of_eq ‹_› h
  · next g t e =>
    have ht := State.authority_of_eq e h
    split
    · exact ht
    · split
      · exact ht
      · split
        · exact ht
        · split <;> exact ht

theorem State.authority_writeVa {s t : State} {a : Access} {slot : Nat} {va : Word} {k : Nat} {bs : List Byte}
    (h : s.writeVa a slot va k bs = .ok t) : t.authority = s.authority := by
  induction k generalizing s va bs with
  | zero => cases h; rfl
  | succ k ih =>
    unfold State.writeVa at h
    dsimp only at h
    split at h
    · cases h; rfl
    · split at h
      · cases h
      · next g u e =>
        have hu := State.authority_of_eq e (s.authority_writeTarget ..)
        split at h
        · cases h
        · simpa [hu] using ih h

theorem State.authority_writeBytes {s t : State} {a : Access} {slot : Nat} {va : Word} {bs : List Byte}
    (h : s.writeBytes a slot va bs = .ok t) : t.authority = s.authority := State.authority_writeVa h

theorem State.authority_writeAll {s t : State} {a : Access} {slot : Nat} {l : List (Word × List Byte)}
    (h : s.writeAll a slot l = .ok t) : t.authority = s.authority := by
  induction l generalizing s with
  | nil => cases h; rfl
  | cons p r ih =>
    obtain ⟨va, bs⟩ := p
    unfold State.writeAll at h
    split at h
    · cases h
    · next u e => exact (ih h).trans (State.authority_writeBytes e)

end Sys2Proof.Machine
end

section
namespace Sys2Proof.Machine

/-! ### Tickets and the references to weight-set halves -/

/-- `State.authority_foldl` for a step that needs to know where the strand runs. -/
theorem State.authority_foldl_of {α : Type} {s : State} (f : State → α → State)
    (hf : ∀ t a, t.authority = s.authority → (f t a).authority = s.authority) (l : List α) :
    ∀ t, t.authority = s.authority → (l.foldl f t).authority = s.authority := by
  induction l with
  | nil => exact fun _ h => h
  | cons a r ih => exact fun t h => ih _ (hf t a h)

theorem State.authority_sweepTickets {s : State} {cn : Nat} (hn : cn = s.authority.cn) :
    (s.sweepTickets cn).authority = s.authority := by
  refine State.authority_foldl_of _ (fun u n hu => ?_) _ s rfl
  have hv : (u.setCore cn ((u.core cn).freeTicket n)).authority = s.authority :=
    (State.authority_setCore fun h => by subst h; rfl).trans hu
  dsimp only
  split
  · split
    · refine (State.authority_report _ ?_).trans hv
      have : cn = u.cur.cn := hn.trans (congrArg Authority.cn hu).symm
      subst this
      rfl
    · exact hv
  · exact hu

theorem State.authority_observeAttached (s : State) (slot : Nat) : (s.observeAttached slot).authority = s.authority := by
  have hc (k : Nat) (l : List Nat) : (l.foldl (fun d n => d.setTicket n ((d.ticket n).observedBy false)) s.myCore).standing k =
      s.myCore.standing k := Core.standing_foldl _ (fun _ _ _ => by rfl) _ _ _
  have h (c : Core) (f : Strand → Strand) (hc : c.standing s.cur.slot = s.myCore.standing s.cur.slot)
      (hf : ∀ t, (f t).standing = t.standing) :
      (((s.setCore s.cur.cn c).modStrand s.cur.cn slot f).sweepTickets s.cur.cn).authority = s.authority := by
    have ht : ((s.setCore s.cur.cn c).modStrand s.cur.cn slot f).authority = s.authority :=
      (State.authority_modStrand fun _ _ => hf _).trans (State.authority_setCore fun _ => hc)
    exact (State.authority_sweepTickets (congrArg Authority.cn ht).symm).trans ht
  exact h _ _ (hc ..) fun _ => rfl

theorem State.authority_unheld {α : Type} {s : State} {f : State → α × State}
    (h : ∀ t : State, (f t).2.authority = t.authority) : (s.unheld f).2.authority = s.authority := h _

@[simp] theorem State.authority_followHome (s : State) (p : Nat) : (s.followHome p).2.authority = s.authority := by
  have h : (s.unheld fun t => t.resolve (t.supAccess (t.part p).lead p) (t.part p).follow 16).2.authority = s.authority :=
    State.authority_unheld fun t => State.authority_resolve ..
  unfold State.followHome
  split <;> exact State.authority_of_eq ‹_› h

@[simp] theorem State.authority_askEnd (s : State) (p h : Nat) : (s.askEnd p h).authority = s.authority := by
  unfold State.askEnd
  dsimp only
  split
  · simp
  · rfl

@[simp] theorem State.authority_dropRefs (s : State) (p : Nat) : (s.dropRefs p).authority = s.authority := by
  simp [State.dropRefs]

@[simp] theorem State.authority_doomPeers (s : State) (cn n : Nat) : (s.doomPeers cn n).authority = s.authority := by
  refine State.authority_foldl _ (fun t m => ?_) _ _
  split
  · exact State.authority_modCore fun _ _ => by rfl
  · split
    · rfl
    · exact State.authority_modCore fun _ _ => by rfl

@[simp] theorem Core.standing_setTicket (c : Core) (n : Nat) (t : Ticket) (k : Nat) : (c.setTicket n t).standing k = c.standing k := rfl

@[simp] theorem Core.standing_releaseTiles (c : Core) (t : Ticket) (ok : Bool) (k : Nat) :
    (c.releaseTiles t ok).standing k = c.standing k := Core.standing_giveBack ..

theorem State.authority_endTicket {s : State} {cn : Nat} (n : Nat) (st : TicketState) (hn : cn = s.authority.cn) :
    (s.endTicket cn n st).authority = s.authority := by
  unfold State.endTicket
  extract_lets t0 u c t implicit ended c1 c2 o c3 u1
  have hu : u.authority = s.authority := by
    dsimp only [u]
    split <;> simp
  have h1 (k : Nat) : c1.standing k = c.standing k := (Core.standing_releaseTiles ..).trans (Core.standing_setTicket ..)
  have h2 (k : Nat) : c2.standing k = c.standing k :=
    (Core.standing_mapStrands (c := c1) (d := c2) (f := fun u => u.seeEnd n t.gen st.code t.tflags) rfl rfl (fun _ => rfl) k).trans (h1 k)
  have h3 (k : Nat) : c3.standing k = c.standing k := by
    dsimp only [c3]
    split
    · exact (Core.standing_setStrand fun hk => by rw [hk]; rfl).trans (h2 k)
    · exact h2 k
  have hs : u1.authority = s.authority := by
    have hset : (u.setCore cn c3).authority = s.authority :=
      (State.authority_setCore fun h => by rw [h3]; dsimp only [c]; rw [h]; rfl).trans hu
    exact (State.authority_sweepTickets (hn.trans (congrArg Authority.cn hset).symm)).trans hset
  split
  · exact (State.authority_dropRefs ..).trans hs
  · exact hs

theorem State.authority_cancelTicket {s : State} {cn : Nat} (n : Nat) (hn : cn = s.authority.cn) :
    (s.cancelTicket cn n).authority = s.authority := by
  have ends (net : List Req) : ({ s with net := net }.endTicket cn n .cancelled).authority = s.authority :=
    State.authority_endTicket (s := { s with net := net }) n _ hn
  unfold State.cancelTicket
  dsimp only
  split
  · rfl
  · split
    · unfold State.cancelArmed
      dsimp only
      split
      · exact ends _
      · split
        · rfl
        · exact State.authority_modCore (s := { s with net := _ }) fun _ _ => by rfl
    · split
      · exact State.authority_modCore fun _ _ => by rfl
      · exact ends s.net

theorem State.authority_observeEnd (s : State) (n gen flags : Nat) (nt : Bool) : (s.observeEnd n gen flags nt).authority = s.authority := by
  have h : (s.unhold.orFlags flags).authority = s.authority := by simp
  unfold State.observeEnd
  extract_lets t s1 s2
  have hs : s2.authority = s.authority := by
    dsimp only [s2]
    split
    · exact (State.authority_modMyCore fun _ _ => by rfl).trans h
    · exact h
  rw [State.authority_acquire]
  exact (State.authority_sweepTickets (congrArg Authority.cn hs).symm).trans hs

/-! ### The waits that user-mode words begin -/

theorem State.authority_setNextRid (s : State) (n : Nat) : State.authority { s with nextRid := n } = s.authority := rfl

theorem State.authority_begin_request (s : State) (r : Req) : (s.begin (.request r)).authority = s.authority := by
  unfold State.begin
  dsimp only
  rw [State.authority_note, State.authority_send]
  split
  · exact State.authority_modMyCore fun _ _ => by rfl
  · rfl

theorem State.authority_begin_arrive (s : State) (die dom : Nat) (v : Option Bool) (m : Option (List Byte)) :
    (s.begin (.arrive die dom v m)).authority = s.authority := by
  have h : (match getKey s.doms (die * 64 + dom) with
      | none => s
      | some d => { s with doms := putKey s.doms (die * 64 + dom) { d with
          arrived := insertNat s.cur.cn d.arrived, votes := v.toList ++ d.votes } }).authority = s.authority := by
    split <;> rfl
  unfold State.begin
  dsimp only
  rw [State.authority_note]
  refine Eq.trans (State.authority_modMyCore fun c k => ?_) h
  split <;> rfl

theorem State.authority_begin_observe (s : State) (n : Bool) : (s.begin (.observe n)).authority = s.authority :=
  (State.authority_note ..).trans (State.authority_observeAttached ..)

theorem State.authority_begin_tiles (s : State) (d : Option Nat) (l : List Nat) (ask : Option Req) :
    (s.begin (.tiles d l ask)).authority = s.authority := by
  unfold State.begin
  dsimp only
  split
  · rw [State.authority_note]
    exact State.authority_modMyCore fun _ _ => Core.standing_takeFor ..
  · rw [State.authority_note, State.authority_send]
    exact State.authority_modMyCore fun _ _ => Core.standing_takeFor ..

@[simp] theorem State.authority_begin_array (s : State) (r w : List (Nat × Nat)) : (s.begin (.array r w)).authority = s.authority :=
  (State.authority_setNextRid ..).trans (State.authority_note ..)

end Sys2Proof.Machine
end

section
namespace Sys2Proof.Machine

/-! ### Forms that many words share -/

theorem Res.keeps_readStop (s : State) (e : Stop) : (readStop e).Keeps s := by
  cases e <;> rfl

/-- A supervisor-only word of a user-mode strand traps (R93). -/
theorem Res.keeps_sup {s : State} (h : s.me.sup = false) (r : Res) : (s.sup r).Keeps s := by
  simp [State.sup, h, Res.Within]

theorem Res.Within.slot0 {ok : Authority → Prop} {s : State} {r : Res} (hs : ok s.authority) (h : s.cur.slot = 0 → r.Within ok s) :
    (s.slot0 r).Within ok s := by
  unfold State.slot0
  split
  · exact h ‹_›
  · exact hs

theorem Res.keeps_trap (s : State) (c : Nat) (a : Word) : (Res.trap c a).Keeps s := rfl

theorem Res.Keeps.done {s t : State} {f : Nat} (h : t.authority = s.authority) : (Res.done t f).Keeps s := h

/-- A check that traps before the rest of a word. -/
theorem Res.Keeps.orTrap {s : State} {p : Prop} {_ : Decidable p} {c : Nat} {a : Word} {r : Res} (h : r.Keeps s) :
    (if p then .trap c a else r : Res).Keeps s := by
  split
  · rfl
  · exact h

/-- A condition on which a word waits before its rest. -/
theorem Res.Keeps.orWait {s : State} {p : Prop} {_ : Decidable p} {r : Res} (h : r.Keeps s) : (if p then .wait else r : Res).Keeps s := by
  split
  · rfl
  · exact h

theorem Res.Keeps.matrix {s : State} {r : Res} (h : r.Keeps s) : (s.matrix r).Keeps s := by
  unfold State.matrix
  split
  · exact h
  · rfl

theorem State.keeps_writeX (s : State) (l : Nat) (d : BitVec 5) (v : Word) : Keeps s (s.writeX l d v) :=
  Res.Keeps.settle (s.authority_setX l d v)

theorem State.keeps_writeP (s : State) (d : Nat) (v : PWord) : Keeps s (s.writeP d v) := Res.Keeps.settle (s.authority_setP 1 d v)

/-- A word whose operands may be ports (R56): its heads are popped, then the word itself runs. -/
theorem Res.Keeps.withPorts {s : State} {srcs dsts : List (BitVec 4)} {k : State → Res}
    (h : ∀ t : State, t.authority = s.authority → (k t).Keeps s) : (s.withPorts srcs dsts k).Keeps s := by
  have hk (l : List Nat) : (k (l.foldl (fun t p => t.pop p) s)).Keeps s :=
    h _ (State.authority_foldl _ (fun _ _ => State.authority_pop ..) _ _)
  unfold State.withPorts
  dsimp only
  split
  · rfl
  · split
    · rfl
    · split
      · rfl
      · refine .orWait ?_
        exact hk _

/-! ### Scalar words and control -/

theorem State.keeps_divideX (s : State) (d a b : BitVec 5) (n w : BitVec 1) (f : Nat × Nat → Nat) : Keeps s (s.divideX d a b n w f) := by
  unfold State.divideX
  split
  · exact Res.Keeps.settle rfl
  · exact Res.Keeps.settle ((State.authority_setX ..).trans (State.authority_modMe fun _ => rfl))

theorem keeps_execPmov (d a : BitVec 5) (m : BitVec 1) (s : State) : Keeps s (execPmov d a m s) := by
  unfold execPmov
  split
  · exact s.keeps_writeX _ _ _
  · exact s.keeps_writeP _ _

theorem keeps_execBr (i : BitVec 25) (s : State) : Keeps s (execBr i s) := Res.Keeps.settle (State.authority_jump ..)

theorem keeps_execBrp (p : BitVec 5) (e : BitVec 1) (i : BitVec 19) (s : State) : Keeps s (execBrp p e i s) := by
  refine Res.Keeps.settle (Res.Keeps.done ?_)
  split
  · exact State.authority_jump ..
  · rfl

theorem keeps_execCall (i : BitVec 25) (s : State) : Keeps s (execCall i s) :=
  Res.Keeps.settle ((State.authority_jump ..).trans (State.authority_setX ..))

theorem keeps_execJr (d a : BitVec 5) (s : State) : Keeps s (execJr d a s) := by
  refine Res.Keeps.settle (.orTrap (.orTrap ?_))
  exact (State.authority_jump ..).trans (State.authority_setX ..)

theorem keeps_execLoop (d : BitVec 5) (o : BitVec 10) (s : State) : Keeps s (execLoop d o s) := by
  unfold execLoop
  refine Res.Keeps.settle (Res.Keeps.done ?_)
  split
  · exact State.authority_setX ..
  · exact (State.authority_jump ..).trans (State.authority_setX ..)

theorem keeps_execRep (m a st : BitVec 5) (n : BitVec 4) (s : State) : Keeps s (execRep m a st n s) := by
  refine Res.Keeps.settle (Res.Keeps.matrix (.orTrap ?_))
  split
  · rfl
  · refine .orTrap (.orTrap ?_)
    split
    · exact State.authority_jump ..
    · exact (State.authority_jump ..).trans (State.authority_modMe fun _ => rfl)

/-! ### Memory words -/

@[simp] theorem State.authority_scalarTarget (s : State) (rd wr : Bool) (va : Word) (n : Nat) :
    (s.scalarTarget rd wr va n).2.authority = s.authority := by
  have h := s.authority_resolve (s.access rd wr) va n
  unfold State.scalarTarget
  split
  · rfl
  · split
    · have ht := State.authority_of_eq ‹_› h
      split <;> exact ht
    · have ht := State.authority_of_eq ‹_› h
      split
      · exact ht
      · split
        · split <;> exact ht
        · exact ht

@[simp] theorem State.authority_vectorTarget (s : State) (rd wr : Bool) (va : Word) :
    (s.vectorTarget rd wr va).2.authority = s.authority := by
  have h := s.authority_resolve (s.access rd wr) va 16
  unfold State.vectorTarget
  split
  · rfl
  · split
    · exact State.authority_of_eq ‹_› h
    · have ht := State.authority_of_eq ‹_› h
      split
      · exact ht
      · split <;> exact ht

@[simp] theorem State.authority_nearHit (s : State) (g : Target) (n hint : Nat) : (s.nearHit g n hint).2.authority = s.authority := by
  unfold State.nearHit
  split
  · split
    · rfl
    · split
      · rfl
      · have ht := s.authority_choose 2
        extract_lets mine
        split
        · rfl
        · dsimp only
          split
          · exact ht
          · exact (State.authority_modMyCore fun _ _ => by rfl).trans ht
  · rfl

@[simp] theorem State.authority_startLoad (s : State) (g : Target) (va : Word) (n win sz hint : Nat) (rs : List Reg) :
    (s.startLoad g va n win sz hint rs).authority = s.authority := by
  have h := s.authority_nearHit g n hint
  unfold State.startLoad
  split
  · exact (State.authority_modMe fun t => Strand.standing_foldl _ (fun _ _ => Strand.standing_setReg ..) _ t).trans
      (State.authority_of_eq ‹_› h)
  · simpa using State.authority_of_eq ‹_› h

theorem Res.Keeps.exchange {s t : State} {x : Bool} {k : State → Option Nat → Res} (ht : t.authority = s.authority)
    (h : ∀ (u : State) (c : Option Nat), u.authority = s.authority → (k u c).Keeps s) : (t.exchange x k).Keeps s := by
  unfold State.exchange
  split
  · exact h _ _ ht
  · split
    · exact h _ _ ht
    · exact h _ _ ((State.authority_disarm _).trans ht)
    · rfl

@[simp] theorem State.authority_sendStore (s : State) (g : Target) (va : Word) (bs : List Byte) (hint : Nat) (depart : Option Nat) :
    (s.sendStore g va bs hint depart).authority = s.authority := by
  unfold State.sendStore
  split
  · exact State.authority_foldl _ (fun _ _ => State.authority_sendTo ..) _ _
  · exact State.authority_sendTo ..

theorem State.keeps_storeTo {s t : State} (ht : t.authority = s.authority) (g : Target) (va : Word) (bs : List Byte) (hint flags : Nat)
    (x : Bool) : (t.storeTo g va bs hint flags x).Keeps s := by
  unfold State.storeTo
  refine .orTrap ?_
  refine Res.Keeps.exchange ht fun u c hu => ?_
  refine .orTrap ?_
  exact (State.authority_sendStore ..).trans hu

theorem State.keeps_atomic (s : State) (va : Word) (n : Nat) (op : ReqOp) (rs : List Reg) (og : Option Nat) :
    (s.atomic va n op rs og).Keeps s := by
  unfold State.atomic
  refine .orTrap ?_
  split
  · rfl
  · next g t e =>
    have ht := State.authority_of_eq e (s.authority_resolve ..)
    extract_lets isDev
    refine .orTrap ?_
    refine Res.Keeps.exchange ht fun u c hu => ?_
    refine .orTrap ?_
    exact (State.authority_pendOn ..).trans ((State.authority_sendTo ..).trans hu)

@[simp] theorem State.authority_lineTarget (s : State) (rd wr : Bool) (va : Word) : (s.lineTarget rd wr va).2.authority = s.authority := by
  have h := s.authority_resolve (s.access rd wr) va 1
  have hw := s.authority_translate (s.access rd wr) va.toNat
  unfold State.lineTarget
  split
  · exact State.authority_of_eq ‹_› h
  · have ht := State.authority_of_eq ‹_› h
    dsimp only
    split
    · split
      · have hu := State.authority_of_eq ‹_› hw
        split
        · exact hu
        · exact ht
      · exact ht
    · exact ht

theorem State.keeps_lineOp (s : State) (rd wr : Bool) (a : BitVec 5) (o : BitVec 10) (op : ReqOp) : (s.lineOp rd wr a o op).Keeps s := by
  have h := s.authority_lineTarget rd wr (s.ea a o.toNat 10 128)
  unfold State.lineOp
  dsimp only
  split
  · rfl
  · exact State.authority_of_eq ‹_› h
  · have ht := State.authority_of_eq ‹_› h
    refine .orTrap ?_
    split
    · exact (State.authority_sendTo ..).trans ht
    · exact ht

theorem keeps_execLd (d a : BitVec 5) (z : BitVec 3) (h : BitVec 2) (o : BitVec 10) (s : State) : Keeps s (execLd d a z h o s) := by
  refine Res.Keeps.settle ?_
  split
  · rfl
  · next g t e =>
    have ht := State.authority_of_eq e (s.authority_scalarTarget ..)
    refine .orTrap ?_
    exact (State.authority_startLoad ..).trans ht

/-- A load whose strand waits for the value (R171, R56). -/
theorem State.authority_awaitLoad {s t : State} (ht : t.authority = s.authority) (h : Home) (op : ReqOp) (va : Word) (rid : Nat)
    (rs : List Reg) : (((t.sendTo h op va none none).pendOn rid rs false).modMe fun w => { w with await := some rid }).authority =
    s.authority :=
  (State.authority_modMe fun _ => by rfl).trans ((State.authority_pendOn ..).trans ((State.authority_sendTo ..).trans ht))

theorem keeps_execLda (d a : BitVec 5) (z e : BitVec 3) (o : BitVec 7) (s : State) : Keeps s (execLda d a z e o s) := by
  refine Res.Keeps.settle ?_
  split
  · rfl
  · next g t e =>
    have ht := State.authority_of_eq e (s.authority_scalarTarget ..)
    refine .orTrap ?_
    exact State.authority_awaitLoad ht ..

theorem keeps_execLdv (d : BitVec 4) (a : BitVec 5) (h : BitVec 2) (o : BitVec 10) (s : State) : Keeps s (execLdv d a h o s) := by
  unfold execLdv
  extract_lets va port absent
  refine Res.Keeps.settle (.orTrap ?_)
  split
  · rfl
  · next g t e =>
    have ht := State.authority_of_eq e (s.authority_vectorTarget ..)
    dsimp only
    refine .orTrap ?_
    split
    · exact State.authority_awaitLoad ht ..
    · exact (State.authority_startLoad ..).trans ht

theorem keeps_execSt (d a : BitVec 5) (z : BitVec 3) (h : BitVec 2) (o : BitVec 10) (s : State) : Keeps s (execSt d a z h o s) := by
  refine Res.Keeps.settle ?_
  split
  · rfl
  · next g t e => exact State.keeps_storeTo (State.authority_of_eq e (s.authority_scalarTarget ..)) ..

theorem keeps_execStl (d a : BitVec 5) (z e : BitVec 3) (o : BitVec 7) (s : State) : Keeps s (execStl d a z e o s) := by
  refine Res.Keeps.settle ?_
  split
  · rfl
  · next g t e =>
    have h := State.keeps_storeTo (State.authority_of_eq e (s.authority_scalarTarget ..)) g (s.ea a o.toNat 7 (szBytes z.toNat))
      (leBytes (szBytes z.toNat) (s.x d).toNat) 3 0 false
    refine .orTrap ?_
    split
    · rfl
    · refine .orWait ?_
      exact h

theorem keeps_execStv (d : BitVec 4) (a : BitVec 5) (h : BitVec 2) (o : BitVec 10) (s : State) : Keeps s (execStv d a h o s) := by
  refine Res.Keeps.settle (Res.Keeps.withPorts fun s0 h0 => ?_)
  split
  · rfl
  · next g t e => exact State.keeps_storeTo ((State.authority_of_eq e (s0.authority_vectorTarget ..)).trans h0) ..

theorem keeps_execFence (t r q : BitVec 1) (e : BitVec 3) (s : State) : Keeps s (execFence t r q e s) := by
  unfold execFence
  refine Res.Keeps.settle (.orWait ?_)
  refine Res.Keeps.done ?_
  split
  · exact State.authority_acquire ..
  · rfl

theorem keeps_execPref (a : BitVec 5) (o : BitVec 10) (s : State) : Keeps s (execPref a o s) := by
  refine Res.Keeps.settle ?_
  split
  · next g t e =>
    have ht := State.authority_of_eq e (s.authority_resolve ..)
    split
    · refine Res.Keeps.done ?_
      split
      · exact (State.authority_sendTo ..).trans ht
      · exact ht
    · exact ht
  · split <;> rfl

end Sys2Proof.Machine
end

section
namespace Sys2Proof.Machine

/-! ### Vector words -/

/-- A vector word with a vector result. -/
theorem State.keeps_vector (s : State) (l : Nat) (srcs dsts : List (BitVec 4)) (d : BitVec 4) (v : VWord) (f : Nat) :
    Keeps s (s.settle (s.withPorts srcs dsts fun t => .done (t.setV l d v) f)) :=
  Res.Keeps.settle (Res.Keeps.withPorts fun _ ht => Res.Keeps.done ((State.authority_setV ..).trans ht))

theorem State.keeps_lanewise (s : State) (l t : Nat) (srcs : List (BitVec 4)) (d : BitVec 4) (p : BitVec 5) (f : Nat → Nat × Nat) :
    Keeps s (s.lanewise l t srcs d p f) := s.keeps_vector _ _ _ _ _ _

theorem State.keeps_lanes2 (s : State) (l : Nat) (t d a b : BitVec 4) (p : BitVec 5) (f : Nat → Nat → Nat × Nat) :
    Keeps s (s.lanes2 l t d a b p f) := s.keeps_lanewise _ _ _ _ _ _

theorem State.keeps_lanes1 (s : State) (l : Nat) (t d a : BitVec 4) (p : BitVec 5) (f : Nat → Nat × Nat) :
    Keeps s (s.lanes1 l t d a p f) := s.keeps_lanewise _ _ _ _ _ _

theorem keeps_execVlogic (d a b : BitVec 4) (p : BitVec 5) (o : BitVec 3) (s : State) : Keeps s (execVlogic d a b p o s) :=
  s.keeps_lanes2 _ _ _ _ _ _ _

theorem keeps_execVabs (d a : BitVec 4) (p : BitVec 5) (t : BitVec 4) (s : State) : Keeps s (execVabs d a p t s) :=
  s.keeps_lanes1 _ _ _ _ _ _

theorem keeps_execVneg (d a : BitVec 4) (p : BitVec 5) (t : BitVec 4) (s : State) : Keeps s (execVneg d a p t s) :=
  s.keeps_lanes1 _ _ _ _ _ _

theorem keeps_execVsh (d a b : BitVec 4) (p : BitVec 5) (t : BitVec 4) (o : BitVec 3) (s : State) : Keeps s (execVsh d a b p t o s) := by
  unfold execVsh
  exact s.keeps_lanes2 _ _ _ _ _ _ _

theorem keeps_execVcmp (d a b : BitVec 4) (p : BitVec 5) (t : BitVec 4) (c : BitVec 3) (s : State) : Keeps s (execVcmp d a b p t c s) :=
  Res.Keeps.settle (Res.Keeps.withPorts fun _ ht => Res.Keeps.done ((State.authority_setP ..).trans ht))

theorem keeps_execVext (d a l t : BitVec 4) (s : State) : Keeps s (execVext d a l t s) :=
  Res.Keeps.settle (Res.Keeps.withPorts fun _ ht => Res.Keeps.done ((State.authority_setX ..).trans ht))

theorem keeps_execRand (d : BitVec 4) (s : State) : Keeps s (execRand d s) :=
  Res.Keeps.settle (Res.Keeps.withPorts fun _ ht =>
    Res.Keeps.done ((State.authority_modMe fun _ => by rfl).trans ((State.authority_setV ..).trans ht)))

/-! ### The ticket words -/

theorem State.keeps_createTicket {s t : State} (ht : t.authority = s.authority) (d : BitVec 5) (k : Nat) (n : NewTicket)
    {take : Core → Core} (h : ∀ c i, (take c).standing i = c.standing i) : (t.createTicket d k n take).Keeps s := by
  refine Res.Keeps.done ((State.authority_setX ..).trans ((State.authority_setNextRid ..).trans (Eq.trans ?_ ht)))
  exact State.authority_modMyCore fun c i => h c i

theorem State.keeps_issueTicket {s t : State} (ht : t.authority = s.authority) (d : BitVec 5) (n : NewTicket) :
    (t.issueTicket d n).Keeps s := by
  unfold State.issueTicket
  split
  · rfl
  · split
    · split <;> rfl
    · refine .orWait ?_
      exact State.keeps_createTicket ht d _ n fun _ _ => Core.standing_takeFor ..

theorem State.keeps_waitTicket (s : State) (h : Word) (nt : Bool) {fin : State → Nat → Res}
    (hf : ∀ t n, t.authority = s.authority → (fin t n).Keeps s) : (s.waitTicket h nt fin).Keeps s := by
  have stale : (fin (s.acquire s.cur.cn 5) 5).Keeps s := hf _ _ (State.authority_acquire ..)
  have ended (st flags : Nat) : (if st = 2 && !nt then Res.trap 0x11 (BitVec.ofNat 64 (h.toNat % 2 ^ 16))
      else fin (s.observeEnd (handleSlot h) (handleGen h) flags nt) st).Keeps s := by
    refine .orTrap ?_
    exact hf _ _ (State.authority_observeEnd ..)
  unfold State.waitTicket
  dsimp only
  split
  · exact ended _ _
  · refine .orWait ?_
    exact stale
  · split
    · exact stale
    · split
      · rfl
      · exact ended _ _

theorem keeps_execWaitt (a : BitVec 5) (s : State) : Keeps s (execWaitt a s) :=
  Res.Keeps.settle (s.keeps_waitTicket _ _ fun _ _ ht => Res.Keeps.done ht)

theorem keeps_execWaittNt (d a : BitVec 5) (s : State) : Keeps s (execWaittNt d a s) :=
  Res.Keeps.settle (s.keeps_waitTicket _ _ fun _ _ ht => Res.Keeps.done ((State.authority_setX ..).trans ht))

theorem keeps_execTestt (d a : BitVec 5) (s : State) : Keeps s (execTestt d a s) := by
  unfold execTestt
  refine Res.Keeps.settle ?_
  split
  · exact Res.Keeps.done (by simp)
  · refine Res.Keeps.done ((State.authority_setP ..).trans ?_)
    split <;> simp

theorem keeps_execCancel (a : BitVec 5) (s : State) : Keeps s (execCancel a s) := by
  refine Res.Keeps.settle (Res.Keeps.done ?_)
  split
  · rfl
  · split
    · exact State.authority_cancelTicket _ rfl
    · rfl

theorem keeps_execDetach (a : BitVec 5) (s : State) : Keeps s (execDetach a s) := by
  refine Res.Keeps.settle (Res.Keeps.done ?_)
  split
  · rfl
  · have h (n : Nat) (u : Ticket) : (s.modMyCore fun c => c.setTicket n u).authority = s.authority :=
      State.authority_modMyCore fun _ _ => rfl
    exact (State.authority_sweepTickets (congrArg Authority.cn (h _ _)).symm).trans (h _ _)

theorem keeps_execAdopt (d a : BitVec 5) (s : State) : Keeps s (execAdopt d a s) := by
  refine Res.Keeps.settle (Res.Within.slot0 rfl fun _ => ?_)
  split
  · exact Res.Keeps.done (State.authority_setX ..)
  · next t _ =>
    refine Res.Keeps.done ((State.authority_setX ..).trans (State.authority_modMyCore fun c k => ?_))
    exact Core.standing_mapStrands (c := c) (f := fun u => u.restale (handleSlot (s.x a)) t.gen (nextGen t.gen)) (by rfl) (by rfl)
      (fun _ => rfl) k

/-! ### The tile words -/

theorem Core.standing_modTile (c : Core) (n : Nat) (f : Tile → Tile) (k : Nat) : (c.modTile n f).standing k = c.standing k := rfl

theorem State.keeps_modTile (s : State) (n : Nat) (f : Tile → Tile) : (Res.done (s.modTile n f) 0).Keeps s :=
  State.authority_modMyCore fun _ _ => Core.standing_modTile ..

theorem keeps_execTdef (n a b : BitVec 5) (s : State) : Keeps s (execTdef n a b s) := by
  refine Res.Keeps.settle (.orTrap (.orTrap (.orTrap (.orTrap (.orTrap ?_)))))
  exact s.keeps_modTile ..

theorem keeps_execTacq (n : BitVec 5) (s : State) : Keeps s (execTacq n s) := by
  refine Res.Keeps.settle (.orTrap ?_)
  exact s.keeps_modTile ..

theorem keeps_execTrel (n : BitVec 5) (s : State) : Keeps s (execTrel n s) := by
  refine Res.Keeps.settle (.orTrap (.orWait ?_))
  exact s.keeps_modTile ..

theorem keeps_execTrelFill (n : BitVec 5) (s : State) : Keeps s (execTrelFill n s) := by
  refine Res.Keeps.settle (.orTrap ?_)
  exact s.keeps_modTile ..

/-! ### Table slots, steps and policy versions -/

theorem keeps_execTbind (n : BitVec 3) (a : BitVec 5) (s : State) : Keeps s (execTbind n a s) := by
  have set {t : State} (ht : t.authority = s.authority) (b : Option Binding) :
      (Res.done ((t.modMyCore fun c => c.bind n.toNat b).dropRefs (t.partNo s.cur.cn)) 0).Keeps s :=
    Res.Keeps.done ((State.authority_dropRefs ..).trans ((State.authority_modMyCore fun _ _ => by rfl).trans ht))
  refine Res.Keeps.settle ?_
  split
  · exact set rfl _
  · refine .orTrap ?_
    split
    · exact Res.keeps_readStop ..
    · next e =>
      have ht := State.authority_of_eq e (s.authority_readStrand ..)
      dsimp only
      refine .orTrap ?_
      exact set ht _

theorem State.keeps_askStep (s : State) (b : Binding) (op : Nat → ReqOp) : (s.askStep b op).Keeps s := by
  unfold State.askStep
  split
  · rfl
  · exact State.authority_begin_request ..

theorem keeps_execTstep (n : BitVec 3) (s : State) : Keeps s (execTstep n s) := by
  refine Res.Keeps.settle ?_
  split
  · rfl
  · refine .orTrap ?_
    split
    · dsimp only
      split <;> exact State.authority_orFlags ..
    · rfl
    · rfl
    · exact s.keeps_askStep ..

theorem State.keeps_askTag (s : State) (b : Binding) (n : NewTicket) : (s.askTag b n).Keeps s := by
  unfold State.askTag
  split
  · rfl
  · exact State.authority_begin_tiles ..

theorem State.keeps_placeTable (s : State) (d : BitVec 5) (n : NewTicket) : (s.placeTable d n).Keeps s := by
  unfold State.placeTable
  dsimp only
  split
  · refine .orWait ?_
    exact State.authority_begin_tiles ..
  · refine .orWait ?_
    exact State.keeps_createTicket rfl d _ n fun _ _ => Core.standing_takeFor ..

theorem State.keeps_issueTable (s : State) (d : BitVec 5) (b : Binding) (tagged : Bool) (mk : Word → NewTicket) :
    (s.issueTable d b tagged mk).Keeps s := by
  unfold State.issueTable
  dsimp only
  split
  · rfl
  · refine .orTrap ?_
    split
    · exact s.keeps_placeTable ..
    · rfl
    · refine .orWait ?_
      split
      · refine .orWait ?_
        exact State.authority_begin_tiles ..
      · split
        · exact s.keeps_askTag ..
        · exact s.keeps_placeTable ..

theorem Res.Keeps.throughSlot {s : State} {n : BitVec 3} {k : Binding → Res} (h : ∀ b, (k b).Keeps s) :
    (s.throughSlot n k).Keeps s := by
  unfold State.throughSlot
  split
  · rfl
  · exact h _

theorem State.keeps_scatter (s : State) (d a : BitVec 5) (n : BitVec 3) (t c : BitVec 5) (word : IWord) :
    (s.scatter d a n t c word).Keeps s := by
  refine Res.Keeps.throughSlot fun b => ?_
  refine .orTrap (.orTrap ?_)
  exact s.keeps_issueTable ..

theorem keeps_execGather (k : BitVec 1) (d a : BitVec 5) (f : BitVec 1) (n : BitVec 3) (t c : BitVec 5) (s : State) :
    Keeps s (execGather k d a f n t c s) := Res.Keeps.settle (Res.Keeps.throughSlot fun _ => s.keeps_issueTable ..)

theorem keeps_execGatherp (k : BitVec 1) (d a : BitVec 5) (m : BitVec 1) (n : BitVec 3) (t c : BitVec 5) (s : State) :
    Keeps s (execGatherp k d a m n t c s) := Res.Keeps.settle (Res.Keeps.throughSlot fun _ => s.keeps_issueTable ..)

theorem keeps_execVpub (a b : BitVec 5) (s : State) : Keeps s (execVpub a b s) := by
  refine Res.Keeps.settle ?_
  split
  · rfl
  · rfl
  · rfl
  · refine .orWait (.orTrap ?_)
    split
    · rfl
    · extract_lets stranger
      refine .orTrap ?_
      exact State.authority_begin_request ..

theorem keeps_execVswitch (a : BitVec 5) (s : State) : Keeps s (execVswitch a s) := by
  refine Res.Keeps.settle (Res.Within.slot0 rfl fun _ => ?_)
  split
  · rfl
  · rfl
  · rfl
  · split
    · rfl
    · exact State.authority_begin_request ..

theorem Res.Keeps.writeTiles {s t : State} (ht : t.authority = s.authority) {blocks : List (Nat × List Byte)} {k : State → Res}
    (h : ∀ u : State, u.authority = s.authority → (k u).Keeps s) : (t.writeTiles blocks k).Keeps s := by
  unfold State.writeTiles
  dsimp only
  split
  · rfl
  · exact h _ ((State.authority_foldl _ (fun _ _ => by rfl) _ _).trans ht)

theorem keeps_execIdsort (d a b t : BitVec 5) (s : State) : Keeps s (execIdsort d a b t s) := by
  unfold execIdsort
  extract_lets u i v bytes
  refine Res.Keeps.settle (.orTrap (.orTrap (.orTrap (.orTrap (.orTrap (.orWait (.orWait ?_)))))))
  exact Res.Keeps.writeTiles rfl fun w hw => Res.Keeps.done ((State.authority_setX ..).trans hw)

theorem keeps_execMerge (d a b t : BitVec 5) (s : State) : Keeps s (execMerge d a b t s) := by
  unfold execMerge
  extract_lets o
  refine Res.Keeps.settle (.orTrap (.orTrap (.orWait (.orWait ?_))))
  split
  refine Res.Keeps.writeTiles rfl fun w hw => ?_
  have h (n : Nat) : (w.setX 1 d (BitVec.ofNat 64 n)).authority = s.authority := (State.authority_setX ..).trans hw
  dsimp only
  split <;> exact h _

end Sys2Proof.Machine
end

section
namespace Sys2Proof.Machine

/-! ### SAMPLE, and the words of the copy and collective engines -/

theorem keeps_execSample (d a t : BitVec 5) (s : State) : Keeps s (execSample d a t s) := by
  unfold execSample
  extract_lets va
  refine Res.Keeps.settle ?_
  split
  · rfl
  · next g s1 e =>
    have h1 := State.authority_of_eq e (s.authority_scalarTarget ..)
    refine .orTrap (.orWait ?_)
    split
    · refine .orWait ?_
      extract_lets xs
      split
      refine Res.Keeps.done ((State.authority_setX ..).trans ((State.authority_sendStore ..).trans ?_))
      exact (State.authority_modMe fun _ => by rfl).trans h1
    · refine .orWait ?_
      exact State.authority_note ..

theorem keeps_execCopy (k : BitVec 1) (d a t c : BitVec 5) (s : State) : Keeps s (execCopy k d a t c s) := by
  unfold execCopy
  extract_lets va
  refine Res.Keeps.settle (Res.Keeps.orTrap ?_)
  split
  · exact Res.keeps_readStop ..
  · next e =>
    have hu := State.authority_of_eq e (s.authority_readStrand ..)
    extract_lets src dst n role
    clear_value src dst n role
    refine .orTrap (.orTrap (.orTrap (.orTrap (.orTrap (.orWait (.orTrap (.orTrap (.orTrap ?_))))))))
    exact State.keeps_issueTicket hu ..

theorem keeps_execShuffle (k : BitVec 1) (d a t c : BitVec 5) (s : State) : Keeps s (execShuffle k d a t c s) := by
  unfold execShuffle
  extract_lets va
  refine Res.Keeps.settle (.orTrap ?_)
  split
  · exact Res.keeps_readStop ..
  · next e =>
    have hu := State.authority_of_eq e (s.authority_readStrand ..)
    extract_lets tile idx n
    refine .orTrap (.orTrap ?_)
    exact State.keeps_issueTicket hu ..

theorem keeps_execGet (k : BitVec 1) (d a t c : BitVec 5) (s : State) : Keeps s (execGet k d a t c s) := by
  refine Res.Keeps.settle (.orTrap ?_)
  exact State.keeps_issueTicket rfl ..

@[simp] theorem State.authority_putTargets (s : State) (va : Word) (n : Nat) : (s.putTargets va n).2.authority = s.authority := by
  induction n generalizing s va with
  | zero => rfl
  | succ n ih =>
    have h := s.authority_resolve (s.access false true) va 16
    unfold State.putTargets
    split
    · exact State.authority_of_eq ‹_› h
    · next g t e =>
      have ht := State.authority_of_eq e h
      extract_lets device
      split
      · exact ht
      · split
        · exact ht
        · split <;> exact State.authority_of_eq ‹_› ((ih ..).trans ht)

@[simp] theorem State.authority_sendPut (s : State) (n first : Nat) (va : Word) (gs : List Target) (bs : List Byte) :
    (s.sendPut n first va gs bs).authority = s.authority := by
  refine State.authority_foldl _ (fun t u => ?_) _ _
  split
  · rfl
  · dsimp only
    split <;> exact State.authority_send ..

@[simp] theorem State.authority_touchFar (s : State) (cn n : Nat) (c : Bool) : (s.touchFar cn n c).authority = s.authority := by
  unfold State.touchFar
  split
  · exact State.authority_modCore fun _ _ => by rfl
  · rfl

@[simp] theorem State.authority_armTicket (s : State) (n cycle : Nat) : (s.armTicket n cycle).authority = s.authority :=
  State.authority_modMyCore fun _ _ => by rfl

theorem keeps_execPut (k : BitVec 1) (d a t c : BitVec 5) (s : State) : Keeps s (execPut k d a t c s) := by
  unfold execPut
  extract_lets va bytes plain new badMcast
  refine Res.Keeps.settle (.orTrap (.orWait (.orTrap ?_)))
  split
  · rfl
  · exact State.keeps_issueTicket rfl ..
  · split
    · rfl
    · next gs u e =>
      have hr := State.keeps_issueTicket (State.authority_of_eq e (s.authority_putTargets ..)) d new
      split
      · next w fl hd =>
        have hw : w.authority = s.authority := by rwa [hd] at hr
        refine .orWait ?_
        exact Res.Keeps.done (by simpa using hw)
      · exact hr

theorem keeps_execColl (k : BitVec 1) (d a : BitVec 5) (o : BitVec 3) (t c : BitVec 5) (s : State) : Keeps s (execColl k d a o t c s) := by
  unfold execColl
  extract_lets cn dom member
  refine Res.Keeps.settle (.orTrap ?_)
  exact State.keeps_issueTicket rfl ..

/-! ### The words of the dense sequencers -/

theorem State.keeps_matrixWord (s : State) (d a c : BitVec 5) (kind : MatKind) (word : IWord) :
    (s.matrixWord d a c kind word).Keeps s := by
  unfold State.matrixWord
  extract_lets va
  refine Res.Keeps.matrix (.orTrap ?_)
  split
  · exact Res.keeps_readStop ..
  · next e =>
    have ht := State.authority_of_eq e (s.authority_readStrand ..)
    extract_lets cmd
    split
    · rfl
    · refine .orTrap ?_
      split
      · rfl
      · exact State.keeps_issueTicket ht ..

@[simp] theorem State.authority_markRot (s : State) (n : Nat) : (s.markRot n).authority = s.authority := by
  unfold State.markRot
  split
  · rfl
  · exact State.authority_modMyCore fun _ _ => by rfl

theorem keeps_execMrot (k : BitVec 1) (d a c : BitVec 5) (s : State) : Keeps s (execMrot k d a c s) := by
  have hr := s.keeps_matrixWord d a c .rot (encode (.mrot k d a c))
  unfold execMrot
  extract_lets n
  refine Res.Keeps.settle ?_
  split
  · next t f e =>
    have ht : t.authority = s.authority := by rwa [e] at hr
    refine Res.Keeps.done ?_
    split
    · exact (State.authority_markRot ..).trans ht
    · exact ht
  · exact hr

theorem keeps_execMfetch (k : BitVec 1) (d a c : BitVec 5) (s : State) : Keeps s (execMfetch k d a c s) := by
  refine Res.Keeps.settle (Res.Keeps.matrix (.orTrap ?_))
  split
  · exact Res.keeps_readStop ..
  · next e =>
    have ht := State.authority_of_eq e (s.authority_readStrand ..)
    split
    · rfl
    · exact State.keeps_issueTicket ht ..

theorem keeps_execMcmd (k : BitVec 1) (d a b c : BitVec 5) (s : State) : Keeps s (execMcmd k d a b c s) := by
  unfold execMcmd
  extract_lets target vb
  refine Res.Keeps.settle (.orTrap (.orTrap ?_))
  split
  · exact Res.keeps_readStop ..
  · next bs t e =>
    have ht := State.authority_of_eq e (s.authority_readStrand ..)
    split
    · rfl
    · extract_lets n
      have hr := State.keeps_issueTicket ht d { s.plainTicket c.toNat (encode (.mcmd k d a b c)) (s.x a) with
        xb := vb, target := some target }
      split
      · next u f hd =>
        have hu : u.authority = s.authority := by rwa [hd] at hr
        exact Res.Keeps.done ((State.authority_send ..).trans hu)
      · exact hr

theorem State.keeps_accMove (s : State) (d a t c : BitVec 5) (load : Bool) (word : IWord) : (s.accMove d a t c load word).Keeps s := by
  unfold State.accMove
  extract_lets x bytes
  refine Res.Keeps.matrix (.orTrap (.orTrap (.orTrap ?_)))
  exact State.keeps_issueTicket rfl ..

theorem Res.Keeps.joinArray {s : State} {f : Foot} {ready : Bool} {k : Res} (h : k.Keeps s) : (s.joinArray f ready k).Keeps s := by
  unfold State.joinArray
  split
  · refine .orWait ?_
    exact h
  · split
    · exact State.authority_begin_array ..
    · exact h

theorem keeps_execAzero (a : BitVec 5) (s : State) : Keeps s (execAzero a s) := by
  unfold execAzero
  extract_lets x b n
  refine Res.Keeps.settle (Res.Keeps.matrix (.orTrap ?_))
  exact Res.Keeps.joinArray rfl

theorem keeps_execAcvt (a t v : BitVec 5) (s : State) : Keeps s (execAcvt a t v s) := by
  unfold execAcvt
  extract_lets cn va dt
  refine Res.Keeps.settle (Res.Keeps.matrix (.orTrap ?_))
  split
  · exact Res.keeps_readStop ..
  · next e =>
    have hu := State.authority_of_eq e (s.authority_readStrand ..)
    extract_lets blk row0 rows scale soff bad
    refine .orTrap (.orTrap (.orTrap ?_))
    exact Res.Keeps.joinArray (Res.Keeps.writeTiles hu fun _ hw => Res.Keeps.done hw)

theorem keeps_execQhist (a : BitVec 4) (p : BitVec 5) (t : BitVec 4) (s : State) : Keeps s (execQhist a p t s) :=
  Res.Keeps.settle (Res.Keeps.matrix (Res.Keeps.done (State.authority_modMyCore fun _ _ => by rfl)))

theorem keeps_execQscale (d a t : BitVec 4) (s : State) : Keeps s (execQscale d a t s) :=
  Res.Keeps.settle (Res.Keeps.matrix (Res.Keeps.done (State.authority_setReg ..)))

/-! ### Frames and rows -/

/-- COMMIT and DECOMMIT of a user-mode strand trap (R340). -/
theorem Res.keeps_withLeaf {s : State} (h : s.me.sup = false) (a : BitVec 5) (k : State → Walk → Res) : (s.withLeaf a k).Keeps s := by
  simp [State.withLeaf, h, Res.Within]

theorem keeps_execAlloc (d a : BitVec 5) (s : State) : Keeps s (execAlloc d a s) := by
  unfold execAlloc
  extract_lets n
  refine Res.Keeps.settle ?_
  split
  · rfl
  · split
    · exact Res.keeps_readStop ..
    · next e =>
      have ht := State.authority_of_eq e (s.authority_readStrand ..)
      extract_lets i
      refine .orTrap ?_
      split
      split
      · exact Res.keeps_readStop ..
      · next eu =>
        have hu := (State.authority_of_eq eu (State.authority_readBytes ..)).trans ht
        split
        · exact Res.keeps_readStop ..
        · have hv := (State.authority_of_eq ‹_› (State.authority_readBytes ..)).trans hu
          split
          · exact Res.keeps_readStop ..
          · next ew =>
            exact Res.Keeps.done ((State.authority_acquire ..).trans ((State.authority_setX ..).trans
              ((State.authority_writeAll ew).trans hv)))

theorem keeps_execFree (a b : BitVec 5) (s : State) : Keeps s (execFree a b s) := by
  unfold execFree
  extract_lets n block
  refine Res.Keeps.settle ?_
  split
  · rfl
  · refine .orWait ?_
    split
    · exact Res.keeps_readStop ..
    · next e =>
      have ht := State.authority_of_eq e (s.authority_readStrand ..)
      extract_lets base size i
      refine .orTrap ?_
      split
      split
      · exact Res.keeps_readStop ..
      · next eu =>
        have hu := (State.authority_of_eq eu (State.authority_readBytes ..)).trans ht
        refine .orTrap ?_
        split
        · exact Res.keeps_readStop ..
        · exact Res.Keeps.done ((State.authority_writeAll ‹_›).trans hu)

theorem keeps_execShip (a b : BitVec 5) (o : BitVec 4) (s : State) : Keeps s (execShip a b o s) := by
  unfold execShip
  extract_lets va n
  refine Res.Keeps.settle (.orTrap (.orTrap ?_))
  split
  · rfl
  · next g t e =>
    have ht := State.authority_of_eq e (s.authority_resolve ..)
    refine .orTrap ?_
    exact Res.Keeps.done ((State.authority_sendTo ..).trans ht)

/-! ### Barriers, slots, messages and control values -/

theorem Res.Keeps.barrier {s : State} {a : BitVec 5} {v : Option Bool} {fin : Bool → Bool → Res} (h : ∀ x y, (fin x y).Keeps s) :
    (s.barrier a v fin).Keeps s := by
  unfold State.barrier
  extract_lets cn dom
  split
  · exact h _ _
  · rfl
  · split
    · rfl
    · refine .orWait ?_
      split
      · split
        · exact Res.keeps_readStop ..
        · exact State.authority_begin_arrive ..
      · exact State.authority_begin_arrive ..

theorem keeps_execBar (a : BitVec 5) (s : State) : Keeps s (execBar a s) := Res.Keeps.settle (Res.Keeps.barrier fun _ _ => rfl)

theorem keeps_execBarv (d a b : BitVec 5) (o : BitVec 1) (s : State) : Keeps s (execBarv d a b o s) :=
  Res.Keeps.settle (Res.Keeps.barrier fun _ _ => Res.Keeps.done (State.authority_setP ..))

theorem keeps_execSlot (n : BitVec 10) (s : State) : Keeps s (execSlot n s) := by
  unfold execSlot
  extract_lets k
  refine Res.Keeps.settle ?_
  split
  · rfl
  · refine .orTrap ?_
    split
    · exact Res.Keeps.done (State.authority_modMe fun _ => by rfl)
    · rfl

theorem keeps_execSend (a b : BitVec 5) (n : BitVec 3) (s : State) : Keeps s (execSend a b n s) := by
  unfold execSend
  extract_lets w cn dev m
  refine Res.Keeps.settle (.orTrap ?_)
  refine Res.Keeps.exchange rfl fun t c ht => ?_
  refine .orWait ?_
  exact Res.Keeps.done ((State.authority_sendTo ..).trans ht)

theorem keeps_execCtrlv (q : BitVec 2) (a : BitVec 5) (s : State) : Keeps s (execCtrlv q a s) := by
  unfold execCtrlv
  extract_lets v
  refine Res.Keeps.settle ?_
  split
  · rfl
  · refine .orTrap (.orWait ?_)
    exact Res.Keeps.done (State.authority_putPort ..)

end Sys2Proof.Machine
end

section
namespace Sys2Proof.Machine

/-! ### Helpers and the ends of strands -/

theorem Core.freeHelper_ne_zero {c : Core} {h : Nat} (e : c.freeHelper = some h) : h ≠ 0 :=
  (by decide : ∀ k ∈ (List.range 11).drop 1, k ≠ 0) h (List.mem_of_find?_eq_some e)

theorem keeps_execSpawn (d a b : BitVec 5) (s : State) : Keeps s (execSpawn d a b s) := by
  unfold execSpawn
  extract_lets pc ordinal arg
  refine Res.Keeps.settle (Res.Within.slot0 rfl fun h0 => Res.Keeps.orTrap (Res.Keeps.orTrap ?_))
  split
  · rfl
  · next h e =>
    split
    · rfl
    · refine Res.Keeps.done ((State.authority_setX ..).trans (State.authority_modStrand fun _ hs => ?_))
      exact absurd (hs.symm.trans h0) (Core.freeHelper_ne_zero e)

theorem keeps_execJoin (a : BitVec 5) (s : State) : Keeps s (execJoin a s) :=
  Res.Keeps.settle (Res.Within.slot0 rfl fun _ => Res.Keeps.orWait (Res.Keeps.done (State.authority_acquire ..)))

@[simp] theorem Core.standing_orphan (c : Core) (slot : Nat) (b : Bool) (k : Nat) : (c.orphan slot b).standing k = c.standing k := rfl

@[simp] theorem Core.standing_emptySlot (c : Core) (slot k : Nat) : (c.emptySlot slot).standing k = c.standing k :=
  Core.standing_setStrand (c := c.endIssuer slot) fun h => by rw [h]; rfl

/-- The implicit wait of EXIT or NEXT, and the rest of the word after it. -/
theorem Res.Within.implicitWaits {ok : Authority → Prop} {s : State} {next : Bool} {k : State → Res} (hs : ok s.authority)
    (h : ∀ t : State, t.authority = s.authority → (k t).Within ok s) : (s.implicitWaits next k).Within ok s := by
  unfold State.implicitWaits
  extract_lets c own
  split
  · exact hs
  · split
    · change ok (s.begin (.observe next)).authority
      rwa [State.authority_begin_observe]
    · exact h _ ((State.authority_acquire ..).trans (State.authority_observeAttached ..))

theorem keeps_execExit {s : State} (h11 : s.cur.slot < 11) : Keeps s (execExit s) := by
  unfold execExit
  extract_lets slot
  refine Res.Keeps.settle ?_
  rw [if_neg (show slot ≠ 11 from Nat.ne_of_lt h11)]
  refine .orWait (Res.Within.implicitWaits rfl fun t ht => ?_)
  split
  · exact State.authority_begin_observe ..
  · exact Res.Keeps.done ((State.authority_modMyCore fun _ _ => by simp).trans ht)

/-! ### Tasks -/

theorem keeps_execTask (d a b : BitVec 5) (s : State) : Keeps s (execTask d a b s) := by
  unfold execTask
  extract_lets va cn off
  refine Res.Keeps.settle ?_
  split
  · exact Res.Keeps.done (State.authority_setX ..)
  · rfl
  · rfl
  · refine .orTrap (.orTrap (.orTrap (.orTrap ?_)))
    split
    · exact Res.keeps_readStop ..
    · next spec t e =>
      generalize leAt spec 0 8 % 4 = low
      refine .orTrap (.orTrap ?_)
      exact State.authority_begin_request ..

theorem keeps_execDecr (a : BitVec 5) (s : State) : Keeps s (execDecr a s) := by
  unfold execDecr
  extract_lets h cn off
  refine Res.Keeps.settle (.orTrap (.orTrap (.orWait ?_)))
  exact Res.Keeps.done (State.authority_send ..)

@[simp] theorem State.authority_setTaskRec (s : State) (cn off v : Nat) : (s.setTaskRec cn off v).authority = s.authority := rfl

@[simp] theorem State.authority_relink (s : State) (cn : Nat) (l : List (Nat × Nat)) : (s.relink cn l).authority = s.authority := by
  induction l generalizing s with
  | nil => rfl
  | cons a r ih => exact (ih _).trans (State.authority_setTaskRec ..)

@[simp] theorem State.authority_enqueue (s : State) (cn off level : Nat) : (s.enqueue cn off level).authority = s.authority :=
  (State.authority_relink ..).trans ((State.authority_modCore fun _ _ => by rfl).trans (State.authority_setTaskRec ..))

@[simp] theorem State.authority_ageLevel (s : State) (cn l : Nat) : (s.ageLevel cn l).authority = s.authority := by
  unfold State.ageLevel
  extract_lets old moved
  split
  · rfl
  · refine (State.authority_foldl _ (fun _ _ => State.authority_enqueue ..) _ _).trans ((State.authority_relink ..).trans ?_)
    exact State.authority_modCore fun _ _ => by rfl

@[simp] theorem State.authority_taskAging (s : State) (cn : Nat) : (s.taskAging cn).authority = s.authority := by
  simp [State.taskAging]

/-- A change of the executing strand that keeps its key. -/
theorem State.lasting_modMe {s : State} {f : Strand → Strand} (h : ∀ t, (f t).rkey = t.rkey) :
    (s.modMe f).authority.lasting = s.authority.lasting := by
  have hc : (s.modMe f).myCore = s.myCore.setStrand s.cur.slot (f s.me) :=
    State.core_setCore_same s _ (s.myCore.setStrand s.cur.slot (f s.me))
  have hk : ((s.myCore.setStrand s.cur.slot (f s.me)).strand s.cur.slot).rkey = (s.myCore.strand s.cur.slot).rkey := by
    rcases s.myCore.strand_setStrand_cases s.cur.slot s.cur.slot (f s.me) with e | ⟨-, e⟩ <;> rw [e]
    exact h s.me
  unfold State.authority
  rw [hc]
  exact congrArg (fun k : Word => { s.authority.lasting with core := ((k, false, 0), s.myCore.regs.guarded) }) hk

theorem State.lasting_takeTask (s : State) (d : BitVec 5) (level off : Nat) :
    (s.takeTask d level off).authority.lasting = s.authority.lasting := by
  unfold State.takeTask
  extract_lets cn r s1 no s2
  have h1 : s1.authority = s.authority := (State.authority_modMyCore fun _ _ => by rfl).trans (State.authority_setTaskRec ..)
  have h2 : s2.authority.lasting = s1.authority.lasting := State.lasting_modMe fun _ => by simp
  have h3 (v : Word) (a : Addr) : (((s2.setX 1 d v).acquire cn 4).jump a).authority = s2.authority :=
    (State.authority_jump ..).trans ((State.authority_acquire ..).trans (State.authority_setX ..))
  exact (congrArg Authority.lasting (h3 _ _)).trans (h2.trans (congrArg _ h1))

theorem within_execNext (d : BitVec 5) (s : State) : Within (fun a => a.lasting = s.authority.lasting) (execNext d s) := by
  refine Res.Within.settle (ok := fun a => a.lasting = s.authority.lasting) (Res.Within.slot0 rfl fun _ => ?_) rfl
    fun a h => show a.lasting.cn = s.authority.lasting.cn by rw [h]
  split
  · rfl
  · refine Res.Within.implicitWaits rfl fun t ht => ?_
    extract_lets u
    have hu : u.authority = s.authority := (State.authority_taskAging ..).trans ht
    split
    · split
      · rfl
      · exact congrArg _ (State.authority_begin_observe ..)
    · split
      · rfl
      · exact (State.lasting_takeTask ..).trans (congrArg _ hu)

/-! ### Modes and system registers -/

theorem State.keeps_setMode (s : State) (exposed : Bool) : Keeps s (s.setMode exposed) := by
  refine Res.Keeps.settle (Res.Keeps.matrix ?_)
  split
  · exact Res.Keeps.done (State.authority_modMyCore fun _ _ => by rfl)
  · split
    · rfl
    · exact State.authority_note ..

theorem keeps_execRstrm {s : State} (h : s.alone = true) (hu : s.me.sup = false) (a b : BitVec 5) : Keeps s (execRstrm a b s) := by
  unfold execRstrm
  extract_lets sid key kept
  refine Res.Keeps.settle ?_
  split
  · rfl
  · next hk =>
    have hk : kept = true := by simpa [hu] using hk
    obtain ⟨hkey, hsid⟩ : key = s.me.rkey ∧ fld sid.toNat 32 32 = fld s.me.sid.toNat 32 32 := by
      simpa [kept, State.src_of_alone h] using hk
    have hfld (v : Word) : fld v.toNat 32 32 = v.toNat / 2 ^ 32 := Nat.mod_eq_of_lt (by have := v.isLt; omega)
    rw [hfld, hfld] at hsid
    refine Res.Keeps.done (State.authority_modStrand fun _ _ => ?_)
    exact Prod.ext hkey (Prod.ext rfl hsid)

theorem keeps_execRsys (d : BitVec 5) (n : BitVec 12) (s : State) : Keeps s (execRsys d n s) := by
  refine Res.Keeps.settle ?_
  split
  · rfl
  · exact .orTrap (Res.Keeps.done (State.authority_setX ..))

theorem State.authority_modRegs {s : State} {f : CoreRegs → CoreRegs} (h : ∀ r, (f r).guarded = r.guarded) :
    (s.modRegs f).authority = s.authority :=
  State.authority_modMyCore fun _ _ => congrArg (Prod.mk _) (h _)

theorem State.authority_clearHist (s : State) : s.clearHist.authority = s.authority := by
  unfold State.clearHist
  split
  · exact State.authority_modMyCore fun _ _ => by rfl
  · rfl

/-- A write of a register of the core or the partition with no supervisor-only field. -/
theorem State.authority_writeCoreSys {s : State} {n : Nat} (h : hasSrw n = false) (v : Word) :
    (s.writeCoreSys n v).authority = s.authority := by
  unfold State.writeCoreSys
  split
  case h_2 => exact State.authority_modRegs fun _ => by rfl
  case h_3 => exact State.authority_modRegs fun _ => by rfl
  case h_4 => exact State.authority_clearHist s
  case h_13 =>
    split
    · next hn =>
      simp [hasSrw] at h hn
      omega
    · rfl
  all_goals exact absurd h (by decide)

theorem State.authority_writeSys {s : State} {n : Nat} (h : hasSrw n = false) (v : Word) : (s.writeSys n v).authority = s.authority := by
  unfold State.writeSys
  split
  case h_1 => exact State.authority_modMe fun _ => by rfl
  case h_2 => exact State.authority_modMe fun _ => by rfl
  case h_6 =>
    unfold State.putSys
    split
    · rfl
    · exact State.authority_writeCoreSys h v
  all_goals exact absurd h (by decide)

theorem keeps_execWsys {s : State} (hu : s.me.sup = false) (a : BitVec 5) (n : BitVec 12) : Keeps s (execWsys a n s) := by
  unfold execWsys
  extract_lets v
  refine Res.Keeps.settle ?_
  split
  · rfl
  · split
    · rfl
    · next hp =>
      obtain ⟨-, hw⟩ : hasSro n.toNat = false ∧ hasSrw n.toNat = false := by simpa [hu] using hp
      split
      · rfl
      · exact Res.Keeps.done (State.authority_writeSys hw v)

end Sys2Proof.Machine
end

section
namespace Sys2Proof.Machine

/-! ### Every word -/

/-- No word of a user-mode strand but NEXT changes its authority. -/
theorem keeps_exec {s : State} {i : Instr} (h : s.alone = true) (h11 : s.cur.slot < 11) (hu : s.me.sup = false)
    (hi : i.wellFormed = true) (hn : ∀ d, i ≠ .next d) : Keeps s (exec i s) := by
  cases i <;> dsimp only [exec]
  -- Scalar words with one result.
  case add | sub | and | andn | or | xor | addImm | andImm | orImm | xorImm | addpc | shl | shr | shra | rot | shlImm | shrImm | shraImm |
      rotImm | clz | ctz | popc | sel | min | max | mul | mulh | extr | ins | lhi | pcnt | tstat | tinfo =>
    apply State.keeps_writeX
  case cmp | cmpImm | plog | pset => apply State.keeps_writeP
  case div | rem => apply State.keeps_divideX
  case pmov => apply keeps_execPmov
  case nop => exact Res.Keeps.settle (Res.Keeps.done rfl)
  case trap => exact Res.Keeps.settle (Res.keeps_trap ..)
  -- Control.
  case br => apply keeps_execBr
  case brp => apply keeps_execBrp
  case call => apply keeps_execCall
  case jr => apply keeps_execJr
  case loop => apply keeps_execLoop
  case rep => apply keeps_execRep
  -- Memory.
  case ld => apply keeps_execLd
  case lda => apply keeps_execLda
  case ldv => apply keeps_execLdv
  case st => apply keeps_execSt
  case stl => apply keeps_execStl
  case stv => apply keeps_execStv
  case amo | cas => exact Res.Keeps.settle (s.keeps_atomic ..)
  case fence => apply keeps_execFence
  case cflush => exact Res.Keeps.settle (s.keeps_lineOp ..)
  case pref => apply keeps_execPref
  -- Vector words.
  case vadd | vsub | vmul | vmin | vmax => exact s.keeps_lanes2 _ _ _ _ _ _ _
  case vlogic => apply keeps_execVlogic
  case vsh => apply keeps_execVsh
  case vabs => apply keeps_execVabs
  case vneg => apply keeps_execVneg
  case vrcp | vrsq | vexp2 | vlog2 => exact s.keeps_lanes1 _ _ _ _ _ _
  case vbcast | vfma => apply State.keeps_lanewise
  case vsel | vshuf | vins | vcvt | vdot | vmaci | vred => exact s.keeps_vector _ _ _ _ _ _
  case vcmp => apply keeps_execVcmp
  case vext => apply keeps_execVext
  -- Tickets and tiles.
  case waitt => apply keeps_execWaitt
  case waittNt => apply keeps_execWaittNt
  case testt => apply keeps_execTestt
  case cancel => apply keeps_execCancel
  case detach => apply keeps_execDetach
  case adopt => apply keeps_execAdopt
  case tdef => apply keeps_execTdef
  case tacq => apply keeps_execTacq
  case trel => apply keeps_execTrel
  case trelFill => apply keeps_execTrelFill
  -- Tables, copies and collectives.
  case tbind => apply keeps_execTbind
  case tstep => apply keeps_execTstep
  case gather => apply keeps_execGather
  case gatherp => apply keeps_execGatherp
  case scatter | scatadd => exact Res.Keeps.settle (s.keeps_scatter ..)
  case vpub => apply keeps_execVpub
  case vswitch => apply keeps_execVswitch
  case idsort => apply keeps_execIdsort
  case merge => apply keeps_execMerge
  case sample => apply keeps_execSample
  case copy => apply keeps_execCopy
  case shuffle => apply keeps_execShuffle
  case get => apply keeps_execGet
  case put => apply keeps_execPut
  case coll => apply keeps_execColl
  -- The dense sequencers.
  case mmul | mmuls => exact Res.Keeps.settle (s.keeps_matrixWord ..)
  case mrot => apply keeps_execMrot
  case mfetch => apply keeps_execMfetch
  case mcmd => apply keeps_execMcmd
  case aload | astore => exact Res.Keeps.settle (s.keeps_accMove ..)
  case azero => apply keeps_execAzero
  case acvt => apply keeps_execAcvt
  case qhist => apply keeps_execQhist
  case qscale => apply keeps_execQscale
  case modeExposed | modeScoreboard => apply State.keeps_setMode
  -- Frames and rows.
  case alloc => apply keeps_execAlloc
  case free => apply keeps_execFree
  case ship => apply keeps_execShip
  -- Barriers, messages and control values.
  case bar => apply keeps_execBar
  case barv => apply keeps_execBarv
  case slot => apply keeps_execSlot
  case send => apply keeps_execSend
  case ctrlv => apply keeps_execCtrlv
  -- Strands and tasks.
  case spawn => apply keeps_execSpawn
  case join => apply keeps_execJoin
  case exit => exact keeps_execExit h11
  case yield => exact Res.Keeps.settle (Res.Keeps.done (State.authority_modMe fun _ => by rfl))
  case task => apply keeps_execTask
  case decr => apply keeps_execDecr
  case next d => exact absurd rfl (hn d)
  -- The generator and the system registers.
  case rand => apply keeps_execRand
  case rskip => exact Res.Keeps.settle (Res.Keeps.done (State.authority_modMe fun _ => by rfl))
  case rstrm => exact keeps_execRstrm h hu _ _
  case rsys => apply keeps_execRsys
  case wsys => exact keeps_execWsys hu _ _
  -- The words of supervisor mode trap.
  case commit | decommit => exact Res.Keeps.settle (Res.keeps_withLeaf hu _ _)
  case cinv | ctxsv | ctxld | idle | rte | tinfoResume | tlbi => exact Res.Keeps.settle (Res.keeps_sup hu _)
  -- What is left is no word.
  all_goals exact absurd hi Bool.false_ne_true

/-- The supervisor-only registers of a strand, its core and its partition, read off its authority without mode and task. -/
theorem State.registers_of_lasting {s t : State} (h : t.authority.lasting = s.authority.lasting) :
    t.me.rkey = s.me.rkey ∧ t.myCore.regs.guarded = s.myCore.regs.guarded ∧
    (t.partFor s.cur.cn).guarded = (s.partFor s.cur.cn).guarded := by
  have hcn : t.cur.cn = s.cur.cn := congrArg Authority.cn h
  have hcore := congrArg Authority.core h
  refine ⟨congrArg (fun c => c.1.1) hcore, congrArg Prod.snd hcore, ?_⟩
  rw [← hcn]
  exact (congrArg Authority.regs h).trans (by rw [hcn]; rfl)

/-- The mode and the task of a strand, read off its authority. -/
theorem State.mode_of_authority {s t : State} (h : t.authority = s.authority) :
    t.me.sup = s.me.sup ∧ t.me.sid.toNat / 2 ^ 32 = s.me.sid.toNat / 2 ^ 32 :=
  have hcore := congrArg Authority.core h
  ⟨congrArg (fun c => c.1.2.1) hcore, congrArg (fun c => c.1.2.2) hcore⟩

theorem lasting_exec {s t : State} {i : Instr} (h : s.alone = true) (h11 : s.cur.slot < 11) (hu : s.me.sup = false)
    (hi : i.wellFormed = true) (ht : exec i s = .next t) : t.authority.lasting = s.authority.lasting := by
  by_cases hn : ∃ d, i = .next d
  · obtain ⟨d, rfl⟩ := hn
    exact within_execNext d s t ht
  · exact congrArg _ (keeps_exec h h11 hu hi (not_exists.1 hn) t ht)

end Sys2Proof.Machine

open Sys2Proof Sys2Proof.Machine

/-- Settles O7. The authority of a strand holds its key, mode and task, and the guarded registers of its core and its partition: every
word of user mode but NEXT keeps it whole, and NEXT keeps all of it but mode and task. -/
theorem userWordsKeepPrivilege : Obligations.UserWordsKeepPrivilege := by
  unfold Obligations.UserWordsKeepPrivilege
  intro s t i h h11 hu hi ht r q x y
  obtain ⟨hkey, hcore, hpart⟩ := State.registers_of_lasting (lasting_exec h h11 hu hi ht)
  have reg {α : Type} (f : CoreRegs → α) (hf : ∀ c : CoreRegs, f c.guarded = f c) : f q = f r := by
    rw [← hf q, ← hf r, hcore]
  refine ⟨hkey, reg _ fun _ => rfl, reg _ fun _ => rfl, reg _ fun _ => rfl, reg _ fun _ => rfl, reg _ fun _ => rfl, reg _ fun _ => rfl,
    reg _ fun _ => rfl, congrArg (·.1) hpart, congrArg (·.2.1) hpart, congrArg (·.2.2.1) hpart, congrArg (·.2.2.2) hpart,
    fun hgain => ?_⟩
  refine Classical.byContradiction fun hn => ?_
  obtain ⟨hsup, hsid⟩ := State.mode_of_authority (keeps_exec h h11 hu hi (not_exists.1 hn) t ht)
  rcases hgain with hg | hg
  · rw [hsup, hu] at hg
    cases hg
  · exact hg hsid

end

section
namespace Sys2Proof.Machine

/-! ### Numbers of system registers (R57) -/

/-- The numbers that name a system register (R57). -/
def isSysReg (n : Nat) : Bool :=
  n ≤ 0x00A || (0x010 ≤ n && n ≤ 0x013) || (0x020 ≤ n && n ≤ 0x028) || (0x030 ≤ n && n ≤ 0x046) || (0x050 ≤ n && n ≤ 0x052) ||
    (0x060 ≤ n && n ≤ 0x062) || n == 0x070

theorem isSysReg_iff {n : Nat} : isSysReg n = true ↔ n ≤ 0x00A ∨ (0x010 ≤ n ∧ n ≤ 0x013) ∨ (0x020 ≤ n ∧ n ≤ 0x028) ∨
    (0x030 ≤ n ∧ n ≤ 0x046) ∨ (0x050 ≤ n ∧ n ≤ 0x052) ∨ (0x060 ≤ n ∧ n ≤ 0x062) ∨ n = 0x070 := by
  simp [isSysReg, or_assoc]

theorem State.regWord_isSome (s : State) (c : Core) (p : Part) (cn : Nat) {n : Nat} (h : 5 ≤ n ∧ n ≠ 6) :
    (s.regWord c p cn n).isSome = isSysReg n := by
  unfold State.regWord
  extract_lets r
  split
  case h_26 =>
    split
    · simp_all [isSysReg]
      omega
    · split
      · simp_all [isSysReg]
        omega
      · simp_all [isSysReg]
        omega
  all_goals rfl

theorem State.sysReg_isSome (s : State) (n : Nat) : (s.sysReg n).isSome = isSysReg n := by
  unfold State.sysReg
  split
  case h_7 h0 h1 h2 h3 h4 h6 =>
    rw [Option.isSome_map]
    simp only [imp_false] at h0 h1 h2 h3 h4 h6
    exact s.regWord_isSome _ _ _ (by omega)
  all_goals rfl

/-- The registers that no write changes (R57). -/
def readOnlyRegs : List Nat :=
  [0x005, 0x006, 0x007, 0x008, 0x009, 0x012, 0x052, 0x070, 0x020, 0x021, 0x022, 0x023, 0x040, 0x041, 0x042, 0x043, 0x044, 0x045, 0x046,
    0x060, 0x061]

theorem State.writeCoreSys_readOnly (s : State) (v : Word) : ∀ n ∈ readOnlyRegs, s.writeCoreSys n v = s := by
  simp [readOnlyRegs, State.writeCoreSys]

/-! ### The fields of a register -/

theorem fld_zero (n len : Nat) : fld n 0 len = n % 2 ^ len := congrArg (· % 2 ^ len) (Nat.div_one n)

theorem bit_toNat (v : Word) (i : Nat) : bit v.toNat i = v.getLsbD i := by
  rw [BitVec.getLsbD, Nat.testBit_eq_decide_div_mod_eq]
  rfl

/-- A number whose low 64 bits are those of a word where `p` holds, and zero elsewhere. -/
theorem ofNat_eq_and_mask {x : Nat} {v m : Word} {p : Nat → Bool} (hm : ∀ i < 64, m.getLsbD i = p i)
    (hx : ∀ i < 64, x.testBit i = (p i && v.toNat.testBit i)) : BitVec.ofNat 64 x = v &&& m :=
  BitVec.eq_of_getLsbD_eq fun i hi => by
    rw [BitVec.getLsbD_and, hm i hi, BitVec.getLsbD_ofNat, hx i hi, BitVec.testBit_toNat, decide_eq_true hi, Bool.true_and, Bool.and_comm]

theorem wdogBits_toNat (v : Word) : wdogBits v.toNat = v &&& 0xFFFFFFFF := by
  refine ofNat_eq_and_mask (p := fun i => decide (i < 32)) (by decide) fun i hi => ?_
  rw [fld_zero, Nat.testBit_mod_two_pow]

theorem alistBits_toNat (v : Word) : alistBits v.toNat = v &&& 0xFFFFFFFFFFFFFFE0 := by
  refine ofNat_eq_and_mask (p := fun i => decide (5 ≤ i)) (by decide) fun i hi => ?_
  rw [fld, Nat.testBit_mul_two_pow, Nat.testBit_mod_two_pow, Nat.testBit_div_two_pow]
  by_cases h : 5 ≤ i
  · simp [h, show i - 5 < 59 by omega]
  · simp [h]

theorem htabBits_toNat (v : Word) : htabBits v.toNat = v &&& 0x800000000000FFFF := by
  refine ofNat_eq_and_mask (p := fun i => decide (i < 16 ∨ i = 63)) (by decide) fun i hi => ?_
  have hlow : v.toNat % 2 ^ 16 < 2 ^ 63 := by omega
  rw [fld, fld_zero, Nat.mul_comm, Nat.testBit_two_pow_mul_add _ hlow, Nat.testBit_mod_two_pow, Nat.testBit_mod_two_pow,
    Nat.testBit_div_two_pow]
  by_cases h : i < 63
  · simp [h, show i ≠ 63 by omega]
  · simp [show i = 63 by omega]

/-! ### WSYS -/

theorem State.modRegs_congr {s : State} {f g : CoreRegs → CoreRegs} (h : f s.myCore.regs = g s.myCore.regs) :
    s.modRegs f = s.modRegs g := by
  unfold State.modRegs State.modMyCore State.modCore
  dsimp only
  rw [show f (s.core s.cur.cn).regs = g (s.core s.cur.cn).regs from h]

theorem State.me_modRegs (s : State) (f : CoreRegs → CoreRegs) : (s.modRegs f).me = s.me := by
  simp [State.modRegs, State.me, State.strand, State.modMyCore, Core.strand]

/-- A write of a system register leaves the cursor as it is, and the strand not suspended. -/
def State.Onward (s t : State) : Prop := t.cur = s.cur ∧ t.me.susp = s.me.susp

theorem State.onward_modRegs (s : State) (f : CoreRegs → CoreRegs) : s.Onward (s.modRegs f) :=
  ⟨rfl, congrArg Strand.susp (s.me_modRegs f)⟩

theorem State.onward_modMe {s : State} {f : Strand → Strand} (h : s.cur.slot < 12) (hf : (f s.me).susp = s.me.susp) :
    s.Onward (s.modMe f) := ⟨rfl, by rw [State.me_modMe _ _ h, hf]⟩

theorem State.onward_modPart (s : State) (p : Nat) (f : Part → Part) : s.Onward (s.modPart p f) := by
  unfold State.modPart
  split <;> exact ⟨rfl, rfl⟩

theorem State.onward_clearHist (s : State) : s.Onward s.clearHist := by
  unfold State.clearHist
  split
  · exact ⟨rfl, by simp [State.me, State.strand, State.modMyCore, Core.strand]⟩
  · exact ⟨rfl, rfl⟩

theorem State.onward_writeCoreSys (s : State) (n : Nat) (v : Word) : s.Onward (s.writeCoreSys n v) := by
  have gstop (p : Nat) : s.Onward (s.gangStop p) := s.onward_modPart ..
  unfold State.writeCoreSys
  split
  case h_4 => exact s.onward_clearHist
  case h_8 =>
    unfold State.writeGstop
    split
    · exact gstop _
    · exact ⟨rfl, rfl⟩
  case h_12 => exact s.onward_modPart ..
  case h_13 =>
    split
    · exact s.onward_modRegs _
    · exact ⟨rfl, rfl⟩
  all_goals exact s.onward_modRegs _

theorem State.writeSys_of_alone {s : State} (h : s.alone = true) {n : Nat} (hn : 5 ≤ n) (v : Word) :
    s.writeSys n v = s.writeCoreSys n v := by
  have hp : s.putSys n v = s.writeCoreSys n v := by simp [State.putSys, (State.alone_iff.1 h).1]
  unfold State.writeSys
  split
  case h_6 => exact hp
  all_goals omega

theorem State.onward_writeSys {s : State} (h : s.alone = true) (n : Nat) (v : Word) : s.Onward (s.writeSys n v) := by
  obtain ⟨hm, -, -, -, -, -, -, hs, -⟩ := State.alone_iff.1 h
  unfold State.writeSys
  split
  case h_6 =>
    rw [State.putSys, hm, if_neg Bool.false_ne_true]
    exact s.onward_writeCoreSys n v
  all_goals exact State.onward_modMe hs rfl

theorem State.settle_onward {s t : State} (h : s.alone = true) (ht : s.Onward t) : s.settle (.done t 0) = .next t.thenNext := by
  obtain ⟨-, -, -, -, htarget, -, -, -, hsusp, -⟩ := State.alone_iff.1 h
  obtain ⟨hcur, hme⟩ := ht
  rw [State.settle_done h (flagsTrap_zero _) (hme.trans hsusp), State.thenNext, hcur, htarget]
  rfl

/-- WSYS on a register that the strand may write and no check refuses. -/
theorem exec_wsys_write {s : State} {k : BitVec 1} {a : BitVec 5} {n : BitVec 12} {m : Nat} (h : s.alone = true) (hn : n.toNat = m)
    (hm : isSysReg m = true) (hp : s.me.sup = true ∨ (hasSro m || hasSrw m) = false)
    (hr : s.refusesSys m (s.me.getX a.toNat).toNat = none) {t : State} (ht : s.writeSys m (s.me.getX a.toNat) = t) :
    exec (.wsys k a n) s = .next t.thenNext := by
  subst hn ht
  obtain ⟨w, hw⟩ := Option.isSome_iff_exists.1 ((s.sysReg_isSome n.toNat).trans hm)
  have hp : ((hasSro n.toNat || hasSrw n.toNat) && !s.me.sup) = false := by
    rcases hp with hp | hp <;> simp [hp]
  change s.settle _ = _
  rw [State.x_of_alone h, hw]
  simp only [hp, hr]
  exact State.settle_onward h (State.onward_writeSys h _ _)

/-- A trap of the causes of WSYS suspends the strand at its bundle (R271). -/
theorem State.settle_wsys_trap {s : State} {c : Nat} {f : Word} (h : s.alone = true) (h11 : s.cur.slot ≠ 11)
    (hc : c = 0x01 ∨ c = 0x03 ∨ c = 0x07) : s.settle (.trap c f) = .next (s.suspendedAt c f s.cur.bundle) := by
  obtain ⟨h13, hheld, hresume⟩ : c % 2 ^ 8 ≠ 0x13 ∧ c ≠ heldCause ∧ c ≠ 0x0D ∧ c ≠ 0x10 ∧ c ≠ 0x17 := by
    rcases hc with rfl | rfl | rfl <;> decide
  rw [State.settle_trap_alone h h11 c h13 f hheld, Cursor.resume]
  simp [hresume]

/-- WSYS that a check refuses. -/
theorem exec_wsys_refused {s : State} {k : BitVec 1} {a : BitVec 5} {n : BitVec 12} {m c : Nat} {f : Word} (h : s.alone = true)
    (h11 : s.cur.slot ≠ 11) (hn : n.toNat = m) (hm : isSysReg m = true) (hp : s.me.sup = true ∨ (hasSro m || hasSrw m) = false)
    (hr : s.refusesSys m (s.me.getX a.toNat).toNat = some (c, f)) (hc : c = 0x01 ∨ c = 0x03 ∨ c = 0x07) :
    exec (.wsys k a n) s = .next (s.suspendedAt c f s.cur.bundle) := by
  subst hn
  obtain ⟨w, hw⟩ := Option.isSome_iff_exists.1 ((s.sysReg_isSome n.toNat).trans hm)
  have hp : ((hasSro n.toNat || hasSrw n.toNat) && !s.me.sup) = false := by
    rcases hp with hp | hp <;> simp [hp]
  change s.settle _ = _
  rw [State.x_of_alone h, hw]
  simp only [hp, hr]
  exact State.settle_wsys_trap h h11 hc

/-- WSYS of a supervisor-only register in user mode. -/
theorem exec_wsys_user {s : State} {k : BitVec 1} {a : BitVec 5} {n : BitVec 12} (h : s.alone = true) (h11 : s.cur.slot ≠ 11)
    (hu : s.me.sup = false) (hm : isSysReg n.toNat = true) (hp : (hasSro n.toNat || hasSrw n.toNat) = true) :
    exec (.wsys k a n) s = .next (s.suspendedAt 0x03 0 s.cur.bundle) := by
  obtain ⟨w, hw⟩ := Option.isSome_iff_exists.1 ((s.sysReg_isSome n.toNat).trans hm)
  change s.settle _ = _
  rw [hw]
  simp only [hp, hu, Bool.not_false, Bool.and_self, if_true]
  exact State.settle_wsys_trap h h11 (by decide)

/-- WSYS of a number that names no register. -/
theorem exec_wsys_unknown {s : State} {k : BitVec 1} {a : BitVec 5} {n : BitVec 12} (h : s.alone = true) (h11 : s.cur.slot ≠ 11)
    (hm : isSysReg n.toNat = false) : exec (.wsys k a n) s = .next (s.suspendedAt 0x01 0 s.cur.bundle) := by
  have hw : s.sysReg n.toNat = none := by
    rw [← Option.not_isSome_iff_eq_none, s.sysReg_isSome, hm]
    exact Bool.false_ne_true
  change s.settle _ = _
  rw [hw]
  exact State.settle_wsys_trap h h11 (by decide)

/-- Only QCFG and HTAB have checks of their own. -/
theorem State.refusesSys_of_ne (s : State) {n : Nat} (h10 : n ≠ 0x010) (h24 : n ≠ 0x024) (v : Nat) : s.refusesSys n v = none := by
  unfold State.refusesSys
  split
  · exact absurd rfl h10
  · exact absurd rfl h24
  · rfl

theorem exec_wsys_readOnly {s : State} {k : BitVec 1} {a : BitVec 5} {n : BitVec 12} (h : s.alone = true)
    (hn : n.toNat ∈ readOnlyRegs) (hp : s.me.sup = true ∨ (hasSro n.toNat || hasSrw n.toNat) = false) :
    exec (.wsys k a n) s = .next s.thenNext := by
  have hr : ∀ m ∈ readOnlyRegs, isSysReg m = true ∧ 5 ≤ m ∧ m ≠ 0x010 ∧ m ≠ 0x024 := by decide
  obtain ⟨hm, h5, h10, h24⟩ := hr _ hn
  exact exec_wsys_write h rfl hm hp (s.refusesSys_of_ne h10 h24 _)
    ((State.writeSys_of_alone h h5 _).trans (s.writeCoreSys_readOnly _ _ hn))

/-! ### The claim of the neighbour ports (R56, R235) -/

theorem State.portsTaken_eq_false_iff {s : State} (h : s.cur.src = none) : s.portsTaken = false ↔
    (s.myCore.regs.claim = none ∨ s.myCore.regs.claim = some s.cur.slot) ∧
      ∀ i < 12, i ≠ s.cur.slot → (s.myCore.strand i).claims = false := by
  have hsrc : s.srcCore = s.myCore := by simp [State.srcCore, h]
  rw [State.portsTaken, Bool.or_eq_false_iff, hsrc]
  refine and_congr ?_ ?_
  · cases s.myCore.regs.claim <;> simp
  · simp [List.any_eq_false]

theorem State.refusesSys_qcfg {s : State} {v : Nat} (hd : bit v 4 = true → isDense s.cur.cn = false) :
    s.refusesSys 0x010 v = if s.portsTaken then some (0x07, s.openAddr) else none := by
  have hc : (bit v 4 && isDense s.cur.cn) = false := by
    cases hb : bit v 4
    · rfl
    · exact hd hb
  simp [State.refusesSys, hc]

/-- A strand that finds the ports free claims them, or gives them up. -/
theorem State.writeQcfg_of_free {s : State} (v : Nat) (h : s.myCore.regs.claim = none ∨ s.myCore.regs.claim = some s.cur.slot) :
    s.writeQcfg v = s.modRegs fun r => { r with claim := if bit v 4 then some s.cur.slot else none } := by
  refine State.modRegs_congr ?_
  rcases h with h | h <;> simp [h]

theorem State.refusesSys_htab (s : State) (v : Nat) : s.refusesSys 0x024 v =
    if v % 8 ≠ 0 ∨ 0x10000 < v % 2 ^ 16 + 128 then some (0x07, s.openAddr) else none := by
  have h8 : v % 2 ^ 16 % 8 = v % 8 := by omega
  simp only [State.refusesSys, fld_zero, h8, Bool.or_eq_true, decide_eq_true_eq]

/-! ### The permission registers -/

theorem State.writeCoreSys_perm (s : State) {i : Nat} (hi : i < 16) (v : Word) :
    s.writeCoreSys (0x030 + i) v = s.modRegs fun r => { r with perm := r.perm.setIfInBounds i v } := by
  have h : (0x030 ≤ 0x030 + i && 0x030 + i < 0x040) = true := by
    simp only [Bool.and_eq_true, decide_eq_true_eq]
    omega
  unfold State.writeCoreSys
  split
  case h_13 => rw [h, if_pos rfl, Nat.add_sub_cancel_left]
  all_goals omega

end Sys2Proof.Machine

open Sys2Proof Sys2Proof.Machine

/-- Settles O37, clause by clause from the equations of WSYS by the kind of register that its number names. -/
theorem systemRegisterWrites : Obligations.SystemRegisterWrites := by
  unfold Obligations.SystemRegisterWrites
  intro s k a n h h11 hpart v regs wrote trap claimed free cleared
  have hsrc := (State.alone_iff.1 h).2.2.2.1
  have hfree : free ↔ s.portsTaken = false := (State.portsTaken_eq_false_iff hsrc).symm
  -- A write that no check refuses, with the effect that `writeCoreSys` gives it.
  have core (m : Nat) (hm : isSysReg m = true ∧ 5 ≤ m) (hp : s.me.sup = true ∨ (hasSro m || hasSrw m) = false)
      (hr : s.refusesSys m v.toNat = none) (hn : n.toNat = m) {t : State} (ht : s.writeCoreSys m v = t) : wrote t :=
    exec_wsys_write h hn hm.1 hp hr ((State.writeSys_of_alone h hm.2 v).trans ht)
  refine ⟨?fctl, ?flags, ?qcfg, ?dense, ?taken, ?qhnd, ?hist, ?plain, ?sup, ?user, ?gaps, ?claim, ?release, ?qhclr, ?wdog⟩
  case fctl => exact fun hn => exec_wsys_write h hn rfl (Or.inr rfl) rfl rfl
  case flags => exact fun hn => exec_wsys_write h hn rfl (Or.inr rfl) rfl rfl
  case qcfg =>
    intro hn hd hf
    refine core 0x010 (by decide) (Or.inr rfl) ?_ hn ?_
    · rw [State.refusesSys_qcfg (by rwa [bit_toNat]), hfree.1 hf]
      rfl
    · exact (State.writeQcfg_of_free _ hf.1).trans (by rw [bit_toNat]; rfl)
  case dense =>
    intro hn hv hd
    refine exec_wsys_refused h h11 hn rfl (Or.inr rfl) ?_ (by decide)
    rw [← bit_toNat] at hv
    exact if_pos (by rw [hv, hd]; rfl)
  case taken =>
    intro hn hd hf
    refine exec_wsys_refused h h11 hn rfl (Or.inr rfl) ?_ (by decide)
    rw [State.refusesSys_qcfg (by rwa [bit_toNat]), if_pos (by simpa [hfree] using hf)]
  case qhnd => exact fun hn => core 0x011 (by decide) (Or.inr rfl) rfl hn rfl
  case hist => exact fun hn => core 0x013 (by decide) (Or.inr rfl) rfl hn rfl
  case plain =>
    intro hn
    have hro : ∀ m ∈ [0x005, 0x006, 0x007, 0x008, 0x009, 0x012, 0x052, 0x070], m ∈ readOnlyRegs ∧ (hasSro m || hasSrw m) = false := by
      decide
    exact exec_wsys_readOnly h (hro _ hn).1 (Or.inr (hro _ hn).2)
  case sup =>
    intro hs
    have core (m : Nat) (hm : isSysReg m = true ∧ 5 ≤ m ∧ m ≠ 0x010 ∧ m ≠ 0x024) (hn : n.toNat = m) {t : State}
        (ht : s.writeCoreSys m v = t) : wrote t :=
      core m ⟨hm.1, hm.2.1⟩ (Or.inl hs) (s.refusesSys_of_ne hm.2.2.1 hm.2.2.2 _) hn ht
    refine ⟨?rkey, ?sid, ?draw, ?terr, ?htab, ?badHtab, ?fhnd, ?setWdog, ?gstop, ?ctxbase, ?perm, ?bdtab, ?sltab, ?alist, ?readOnly⟩
    case rkey => exact fun hn => exec_wsys_write h hn rfl (Or.inl hs) rfl rfl
    case sid => exact fun hn => exec_wsys_write h hn rfl (Or.inl hs) rfl rfl
    case draw => exact fun hn => exec_wsys_write h hn rfl (Or.inl hs) rfl rfl
    case terr => exact fun hn => core 0x00A (by decide) hn (by rw [← bit_toNat]; rfl)
    case htab =>
      intro hn h8 hend
      refine exec_wsys_write h hn rfl (Or.inl hs) ?_ ((State.writeSys_of_alone h (by decide) v).trans ?_)
      · exact (s.refusesSys_htab v.toNat).trans (if_neg (by omega))
      · rw [← htabBits_toNat]
        rfl
    case badHtab =>
      intro hn hbad
      refine exec_wsys_refused h h11 hn rfl (Or.inl hs) ?_ (by decide)
      rw [State.refusesSys_htab, if_pos hbad]
    case fhnd => exact fun hn => core 0x025 (by decide) hn rfl
    case setWdog => exact fun hn => core 0x026 (by decide) hn (by rw [← wdogBits_toNat]; rfl)
    case gstop => exact fun hn => core 0x027 (by decide) hn (by rw [← bit_toNat]; rfl)
    case ctxbase => exact fun hn => core 0x028 (by decide) hn rfl
    case perm =>
      intro i hi hn
      exact core (0x030 + i) ⟨isSysReg_iff.2 (by omega), by omega, by omega, by omega⟩ hn (s.writeCoreSys_perm hi v)
    case bdtab => exact fun hn => core 0x050 (by decide) hn rfl
    case sltab => exact fun hn => core 0x051 (by decide) hn rfl
    case alist => exact fun hn => core 0x062 (by decide) hn (by rw [← alistBits_toNat]; rfl)
    case readOnly =>
      intro hn
      have hro : ∀ m ∈ [0x020, 0x021, 0x022, 0x023, 0x040, 0x041, 0x042, 0x043, 0x044, 0x045, 0x046, 0x060, 0x061],
          m ∈ readOnlyRegs := by decide
      exact exec_wsys_readOnly h (hro _ hn) (Or.inl hs)
  case user =>
    intro hu hn
    simp only [List.mem_cons, List.not_mem_nil, or_false] at hn
    refine exec_wsys_user h h11 hu (isSysReg_iff.2 (by omega)) ?_
    simp only [hasSro, hasSrw, Bool.or_eq_true, Bool.and_eq_true, decide_eq_true_eq, beq_iff_eq]
    omega
  case gaps =>
    intro hn
    exact exec_wsys_unknown h h11 (Bool.eq_false_iff.2 fun hm => by have := isSysReg_iff.1 hm; omega)
  case claim =>
    intro hd hf
    have hr : s.refusesSys 0x010 16 = none := by
      rw [State.refusesSys_qcfg fun _ => hd, hfree.1 hf]
      rfl
    change State.setQcfg s 16 = _
    rw [State.setQcfg, hr]
    exact congrArg _ (State.writeQcfg_of_free 16 hf.1)
  case release =>
    intro hf
    have hr : s.refusesSys 0x010 0 = none := by
      rw [State.refusesSys_qcfg fun hb => absurd hb (by decide), hfree.1 hf]
      rfl
    change State.setQcfg s 0 = _
    rw [State.setQcfg, hr]
    exact congrArg _ (State.writeQcfg_of_free 0 hf.1)
  case qhclr => rfl
  case wdog =>
    change Host.Outcome.next (s.writeWdog v.toNat) = _
    rw [State.writeWdog, wdogBits_toNat]
    rfl

end

section
namespace Sys2Proof.Machine

/-! ### Lanes of a vector (R69) -/

theorem testBit_ofLanes {w : Nat} (hw : 0 < w) (l : List Nat) (i : Nat) :
    (ofLanes w l).testBit i = (l[i / w]?.getD 0).testBit (i % w) := by
  induction l generalizing i with
  | nil => simp [ofLanes]
  | cons x xs ih =>
    rw [ofLanes, Nat.add_comm, Nat.testBit_two_pow_mul_add _ (Nat.mod_lt _ (Nat.two_pow_pos w))]
    by_cases hi : i < w
    · simp [hi, Nat.div_eq_of_lt hi, Nat.mod_eq_of_lt hi, Nat.testBit_mod_two_pow]
    · have hd : i / w = (i - w) / w + 1 := Nat.div_eq_sub_div hw (by omega)
      rw [if_neg hi, ih, hd, List.getElem?_cons_succ, ← Nat.mod_eq_sub_mod (by omega)]

theorem testBit_lane (v : VWord) (w i j : Nat) : (lane v w i).testBit j = (decide (j < w) && v.getLsbD (w * i + j)) := by
  rw [lane, fld, Nat.testBit_mod_two_pow, Nat.testBit_div_two_pow, Nat.add_comm]
  rfl

theorem getLsbD_mergeLanes {w n : Nat} (hn : n * w = 128) (p : PWord) (old : VWord) (f : Nat → Nat) {i : Nat} (hi : i < 128) :
    (mergeLanes w n p old f).getLsbD i = if p.getLsbD (i / w) then (f (i / w)).testBit (i % w) else old.getLsbD i := by
  have hw : 0 < w := by
    rcases Nat.eq_zero_or_pos w with rfl | h
    · omega
    · exact h
  have hlane : i / w < n := (Nat.div_lt_iff_lt_mul hw).2 (by omega)
  rw [mergeLanes, BitVec.getLsbD_ofNat, testBit_ofLanes hw]
  simp only [hi, List.getElem?_map, List.getElem?_range hlane, decide_true, Bool.true_and, Option.map_some, Option.getD_some]
  split
  · rfl
  · rw [testBit_lane, Nat.div_add_mod, decide_eq_true (Nat.mod_lt i hw), Bool.true_and]

/-- OR byte by byte under a predicate of ones is OR of the vectors (R418). -/
theorem mergeLanes_or (old x y : VWord) : mergeLanes 8 16 0xFFFF old (fun i => lane x 8 i ||| lane y 8 i) = x ||| y := by
  have hp : ∀ j < 16, (0xFFFF : PWord).getLsbD j = true := by decide
  refine BitVec.eq_of_getLsbD_eq fun i hi => ?_
  rw [getLsbD_mergeLanes (by decide) _ _ _ hi, hp _ (by omega), if_pos rfl, Nat.testBit_or, testBit_lane, testBit_lane,
    Nat.div_add_mod, decide_eq_true (Nat.mod_lt i (by decide)), BitVec.getLsbD_or]
  rfl

theorem laneFlags_zero (n : Nat) (p : PWord) : laneFlags n p (fun _ => 0) = 0 := by
  unfold laneFlags
  induction List.range n with
  | nil => rfl
  | cons i l ih => rw [List.foldl_cons, Nat.or_zero, ite_self, ih]

/-- VLOGIC with the operation OR under the predicate of ones. -/
theorem exec_vlogic_or (k : BitVec 1) (d a b : BitVec 4) (s : State) :
    exec (.vlogic k d a b 31 1) s = s.settle (s.withPorts [a, b] [d] fun t => .done (t.setV 2 d (s.v a ||| s.v b)) 0) := by
  rw [← mergeLanes_or (s.vOld d) (s.v a) (s.v b), ← laneFlags_zero 16 0xFFFF]
  rfl

/-! ### Changes of the executing core and its neighbour -/

theorem State.core_modCore_keeps {α : Type} {g : Core → α} (s : State) (n k : Nat) {f : Core → Core}
    (h : ∀ c, g (f c) = g c) : g ((s.modCore n f).core k) = g (s.core k) := by
  by_cases hk : k = n
  · subst hk
    rw [State.core_modCore_same, h]
  · rw [State.core_modCore_other _ _ hk]

theorem State.me_modCore (s : State) (n : Nat) {f : Core → Core} (h : ∀ c, (f c).strands = c.strands) :
    (s.modCore n f).me = s.me :=
  s.core_modCore_keeps (g := fun c => c.strand s.cur.slot) n s.cur.cn fun c => by simp [Core.strand, h]

@[simp] theorem State.myCore_modMyCore (s : State) (f : Core → Core) : (s.modMyCore f).myCore = f s.myCore :=
  s.core_modCore_same _ f

@[simp] theorem State.myCore_modMe (s : State) (f : Strand → Strand) :
    (s.modMe f).myCore = s.myCore.setStrand s.cur.slot (f s.me) := s.core_setCore_same _ _

theorem State.me_modMyCore (s : State) {f : Core → Core} (h : (f s.myCore).strands = s.myCore.strands) :
    (s.modMyCore f).me = s.me := by
  change (s.modMyCore f).myCore.strand s.cur.slot = s.myCore.strand s.cur.slot
  simp [Core.strand, h]

theorem State.modMyCore_congr {s : State} {f g : Core → Core} (h : f s.myCore = g s.myCore) : s.modMyCore f = s.modMyCore g :=
  congrArg (s.setCore s.cur.cn) h

@[simp] theorem State.me_pop (s : State) (p : Nat) : (s.pop p).me = s.me := s.me_modCore _ fun _ => rfl

/-- A push enters the neighbour's queue of the opposite name (R19, R236). -/
theorem State.push_eq {s : State} {p n : Nat} (hn : neighbour s.cur.cn p = some n) (e : QEntry) :
    s.push p e = s.modCore n fun c => { c with
      queues := c.queues.setIfInBounds (opposite p) (c.queue (opposite p) ++ [e]) } := by
  rw [State.push, hn]

theorem State.pushFull_eq {s : State} {p n : Nat} (hn : neighbour s.cur.cn p = some n) :
    s.pushFull p = decide (8 ≤ ((s.core n).queue (opposite p)).length) := by
  rw [State.pushFull, hn]

theorem State.pop_eq {s : State} {p : Nat} {e : QEntry} {r : List QEntry} (hq : s.myCore.queue p = e :: r) :
    s.pop p = s.modMyCore fun c => { c with queues := c.queues.setIfInBounds p r } :=
  State.modMyCore_congr (by simp [hq])

/-! ### Vector fields that name ports (R56) -/

theorem State.srcCore_of_alone {s : State} (h : s.alone = true) : s.srcCore = s.myCore := by
  obtain ⟨-, -, -, hsrc, -⟩ := State.alone_iff.1 h
  rw [State.srcCore, hsrc]
  rfl

theorem State.portOf_of_lt (s : State) {r : Nat} (h : r < 12) : s.portOf r = none := by
  simp [State.portOf, show ¬ 12 ≤ r by omega]

theorem State.v_of_lt {s : State} (h : s.alone = true) {r : BitVec 4} (hr : r.toNat < 12) : s.v r = s.me.getV r.toNat := by
  rw [State.v, s.portOf_of_lt hr, State.src_of_alone h]

/-- A vector register that is no port takes a result when its word completes, outside an exposed region. -/
theorem State.setV_of_lt {s : State} (hx : s.myCore.regs.exposed = false) (l : Nat) {d : BitVec 4} (hd : d.toNat < 12) (v : VWord) :
    s.setV l d v = s.modMe fun u => u.setV d.toNat v := by
  rw [State.setV, s.portOf_of_lt hd]
  simp [State.setReg, hx, Strand.setReg]

/-- The vector field of a port. -/
def portField (q : BitVec 2) : BitVec 4 := BitVec.ofNat 4 (12 + q.toNat)

theorem portField_toNat (q : BitVec 2) : (portField q).toNat = 12 + q.toNat := by
  simp only [portField, BitVec.toNat_ofNat]
  omega

/-- The strand is alone with its word and holds the claim of its core's ports (R56, R235). -/
structure State.HoldsPorts (s : State) : Prop where
  alone : s.alone = true
  bobbin : isDense s.cur.cn = false
  claim : s.myCore.regs.claim = some s.cur.slot

section
variable {s : State} (h : s.HoldsPorts)
include h

theorem State.HoldsPorts.portOf (p : Nat) : s.portOf (12 + p) = some p := by
  simp [State.portOf, h.bobbin, State.srcCore_of_alone h.alone, h.claim]

theorem State.HoldsPorts.portOf_field (q : BitVec 2) : s.portOf (portField q).toNat = some q.toNat := by
  rw [portField_toNat, h.portOf]

theorem State.HoldsPorts.putPort (p : Nat) (e : QEntry) : s.putPort p e = s.push p e := by
  simp [State.putPort, (State.alone_iff.1 h.alone).1]

theorem State.HoldsPorts.setV_port (l : Nat) (q : BitVec 2) (v : VWord) :
    s.setV l (portField q) v = s.push q.toNat { tag := false, val := v } := by
  rw [State.setV, h.portOf_field]
  exact h.putPort _ _

theorem State.HoldsPorts.v_port {q : BitVec 2} {e : QEntry} {r : List QEntry} (hq : s.myCore.queue q.toNat = e :: r) :
    s.v (portField q) = e.val := by
  rw [State.v, h.portOf_field]
  simp [State.srcCore_of_alone h.alone, hq]

end

/-! ### Words with port operands (R236, R237) -/

/-- The search for a control value among the heads of one port. -/
theorem find?_range_port {p : Nat} (hp : p < 4) (tag : Nat → Bool) :
    (List.range 4).find? (fun i => [p].contains i && tag i) = if tag p then some p else none := by
  split
  · next ht =>
    refine List.find?_range_eq_some.2 ⟨by simp [ht], List.mem_range.2 hp, fun j hj => ?_⟩
    simp [show j ≠ p by omega]
  · next ht =>
    refine List.find?_eq_none.2 fun j _ => ?_
    by_cases hj : j = p <;> simp [hj, ht]

/-- A word with one port among its sources and none among its destinations: it waits for an entry, and a control value at the head
ends it. -/
theorem State.withPorts_source {s t : State} {srcs dsts : List (BitVec 4)} {k : State → Res} {p n f : Nat}
    (hs : s.alone = true) (hi : srcs.filterMap (fun r => s.portOf r.toNat) = [p])
    (ho : dsts.filterMap (fun r => s.portOf r.toNat) = []) (hp : p < 4) (hn : neighbour s.cur.cn p = some n)
    (hk : k (s.pop p) = .done t f) :
    s.withPorts srcs dsts k = match s.myCore.queue p with
      | [] => .wait
      | e :: _ => if e.tag then .control p else .done t f := by
  have hport : [p].find? (fun p => (neighbour s.cur.cn p).isNone) = none := by simp [hn]
  simp only [State.withPorts, hi, ho, List.append_nil, hport, List.foldl_cons, List.foldl_nil, hk, find?_range_port hp,
    State.srcCore_of_alone hs]
  cases hq : s.myCore.queue p with
  | nil => simp [hq]
  | cons e r => cases he : e.tag <;> simp [hq, he]

/-- A word with one port among its destinations and none among its sources: it waits while the neighbour's queue is full. -/
theorem State.withPorts_dest {s t : State} {srcs dsts : List (BitVec 4)} {k : State → Res} {p n f : Nat}
    (hi : srcs.filterMap (fun r => s.portOf r.toNat) = []) (ho : dsts.filterMap (fun r => s.portOf r.toNat) = [p])
    (hn : neighbour s.cur.cn p = some n) (hk : k s = .done t f) :
    s.withPorts srcs dsts k = if s.pushFull p then .wait else .done t f := by
  have hport : [p].find? (fun p => (neighbour s.cur.cn p).isNone) = none := by simp [hn]
  have hcontrol : (List.range 4).find? (fun _ => false) = none := List.find?_eq_none.2 fun _ _ => Bool.false_ne_true
  simp [State.withPorts, hi, ho, hport, hk, hcontrol]

/-! ### A word that pops or pushes -/

section
variable {s : State} (h : s.HoldsPorts) {q : BitVec 2} {n : Nat} (hn : neighbour s.cur.cn q.toNat = some n)
include h hn

/-- OR of the port and a vector register, from what the head of the port's queue is. -/
theorem State.HoldsPorts.exec_or_from_port (k : BitVec 1) {b d : BitVec 4} (hb : b.toNat < 12) (hd : d.toNat < 12) :
    exec (.vlogic k d (portField q) b 31 1) s = s.settle (match s.myCore.queue q.toNat with
      | [] => .wait
      | e :: _ => if e.tag then .control q.toNat else
        .done ((s.pop q.toNat).modMe fun u => u.setV d.toNat (s.v (portField q) ||| s.me.getV b.toNat)) 0) := by
  have hx : (s.pop q.toNat).myCore.regs.exposed = false := by
    obtain ⟨-, -, -, -, -, -, -, -, -, -, hx, -⟩ := State.alone_iff.1 h.alone
    rwa [State.pop, State.myCore_modMyCore]
  rw [exec_vlogic_or, State.v_of_lt h.alone hb]
  congr 1
  refine State.withPorts_source h.alone ?_ ?_ q.isLt hn (congrArg (Res.done · 0) (State.setV_of_lt hx 2 hd _))
  · simp [h.portOf_field, s.portOf_of_lt hb]
  · simp [s.portOf_of_lt hd]

/-- OR of a vector register with itself to the port. -/
theorem State.HoldsPorts.exec_or_to_port (k : BitVec 1) {b : BitVec 4} (hb : b.toNat < 12) :
    exec (.vlogic k (portField q) b b 31 1) s = s.settle (if s.pushFull q.toNat then .wait else
      .done (s.push q.toNat { tag := false, val := s.me.getV b.toNat }) 0) := by
  rw [exec_vlogic_or, State.v_of_lt h.alone hb, BitVec.or_self]
  congr 1
  refine State.withPorts_dest ?_ ?_ hn (congrArg (Res.done · 0) (h.setV_port 2 q _))
  · simp [s.portOf_of_lt hb]
  · simp [h.portOf_field]

theorem State.HoldsPorts.exec_ctrlv (k : BitVec 1) (x : BitVec 5) :
    exec (.ctrlv k q x) s = s.settle (if s.pushFull q.toNat then .wait else
      .done (s.push q.toNat { tag := true, val := BitVec.ofNat 128 ((s.me.getX x.toNat).toNat % 256) }) 0) := by
  change s.settle _ = _
  rw [h.portOf, State.x_of_alone h.alone]
  simp [hn, h.putPort]

/-- A push into a neighbour's queue that has room. -/
theorem State.HoldsPorts.settle_push_room (e : QEntry) (hroom : ¬ 8 ≤ ((s.core n).queue (opposite q.toNat)).length) :
    s.settle (if s.pushFull q.toNat then .wait else .done (s.push q.toNat e) 0) = .next (s.modCore n fun c => { c with
      queues := c.queues.setIfInBounds (opposite q.toNat) (c.queue (opposite q.toNat) ++ [e]) }).thenNext := by
  rw [State.pushFull_eq hn, decide_eq_false hroom, State.push_eq hn]
  exact State.settle_onward h.alone ⟨rfl, congrArg Strand.susp (s.me_modCore n fun _ => rfl)⟩

omit h in
/-- A push into a full queue: the word waits. -/
theorem State.settle_push_full (e : QEntry) (hfull : 8 ≤ ((s.core n).queue (opposite q.toNat)).length) :
    s.settle (if s.pushFull q.toNat then .wait else .done (s.push q.toNat e) 0) = .next (s.setEnding .waiting) := by
  rw [State.pushFull_eq hn, decide_eq_true hfull]
  rfl

/-- OR of a data entry at the head of the port and a vector register: the entry is popped. -/
theorem State.HoldsPorts.exec_or_data (k : BitVec 1) {b d : BitVec 4} (hb : b.toNat < 12) (hd : d.toNat < 12) {e : QEntry}
    {r : List QEntry} (hq : s.myCore.queue q.toNat = e :: r) (he : e.tag = false) :
    exec (.vlogic k d (portField q) b 31 1) s = .next
      ((s.modMyCore fun c => { c with queues := c.queues.setIfInBounds q.toNat r }).wroteV d (e.val ||| s.me.getV b.toNat) 0) := by
  obtain ⟨-, -, -, -, -, -, -, hs, -⟩ := State.alone_iff.1 h.alone
  rw [h.exec_or_from_port hn k hb hd, hq, h.v_port hq]
  simp only [he, Bool.false_eq_true, if_false]
  refine (State.settle_onward h.alone (t := (s.pop q.toNat).modMe _) ⟨rfl, ?_⟩).trans ?_
  · rw [State.me_modMe, State.me_pop]
    · rfl
    · exact hs
  · rw [State.pop_eq hq]
    rfl

end

/-! ### Control values (R237, R344) -/

theorem State.settle_control {s : State} (h : s.cur.multi = false) (p : Nat) :
    s.settle (.control p) = .next ((s.takeControl p).setEnding (.control p)) := by
  simp [State.settle, h]

/-- What QCODE takes: the bundle's address, the port and the value. -/
def State.controlCode (s : State) (p : Nat) (e : QEntry) : Word :=
  BitVec.ofNat 64 (s.cur.bundle.toNat / 4 * 2 ^ 10 + p * 2 ^ 8 + e.val.toNat % 256)

/-- A strand that abandons its bundle for a routine (R237). -/
def Strand.continuesIn (t : Strand) (a : Addr) : Strand := { t with pc := a, holds := [], jumped := true }

section
variable {s : State} {p : Nat} {e : QEntry} {r : List QEntry} (hq : s.myCore.queue p = e :: r)
  (h0 : s.myCore.regs.qhnd.toNat % 2 ^ 56 ≠ 0) (h4 : s.myCore.regs.qhnd.toNat % 4 = 0)
include hq h0 h4

/-- A control value is popped where QHND is a code address. -/
theorem State.takeControl_eq :
    s.takeControl p = ((s.modMyCore fun c => c.giveTiles s.cur.slot).modMyCore fun c => { c with
      queues := c.queues.setIfInBounds p r, regs := { c.regs with qcode := s.controlCode p e } }).modMe fun t =>
      t.continuesIn (s.myCore.regs.qhnd.setWidth 56) := by
  have hbundle : fld s.cur.bundle.toNat 2 54 = s.cur.bundle.toNat / 4 :=
    Nat.mod_eq_of_lt (by have := s.cur.bundle.isLt; omega)
  have hqhnd : (decide (s.myCore.regs.qhnd.toNat % 2 ^ 56 = 0) || decide (s.myCore.regs.qhnd.toNat % 4 ≠ 0)) = false := by
    rw [decide_eq_false h0, h4]
    rfl
  have hqueue : s.myCore.queues[p]?.getD [] = e :: r := hq
  simp only [State.takeControl, hqhnd, hqueue, hbundle]
  rfl

theorem State.queue_takeControl (hp : p < 4) : (s.takeControl p).myCore.queue p = r := by
  rw [State.takeControl_eq hq h0 h4]
  simp [Core.queue, hp]

theorem State.qcode_takeControl : (s.takeControl p).myCore.regs.qcode = s.controlCode p e := by
  rw [State.takeControl_eq hq h0 h4]
  simp

theorem State.me_takeControl (hslot : s.cur.slot < 12) : (s.takeControl p).me =
    s.me.continuesIn (s.myCore.regs.qhnd.setWidth 56) := by
  rw [State.takeControl_eq hq h0 h4, State.me_modMe, State.me_modMyCore, State.me_modMyCore]
  · exact Core.giveTiles_strands ..
  · rfl
  · exact hslot

theorem State.mem_takeControl : (s.takeControl p).mem = s.mem := by
  rw [State.takeControl_eq hq h0 h4]
  rfl

end

/-- OR of the port and a vector register, with a control value at the head of the port's queue: the word is abandoned. -/
theorem State.HoldsPorts.exec_or_control {s : State} (h : s.HoldsPorts) {q : BitVec 2} {n : Nat}
    (hn : neighbour s.cur.cn q.toNat = some n) (k : BitVec 1) {b d : BitVec 4} (hb : b.toNat < 12) (hd : d.toNat < 12) {e : QEntry}
    {r : List QEntry} (hq : s.myCore.queue q.toNat = e :: r) (he : e.tag = true) :
    exec (.vlogic k d (portField q) b 31 1) s = .next ((s.takeControl q.toNat).setEnding (.control q.toNat)) := by
  rw [h.exec_or_from_port hn k hb hd, hq]
  simp only [he, if_true]
  exact State.settle_control (State.alone_iff.1 h.alone).1 _

end Sys2Proof.Machine
end

section
open Sys2Proof Sys2Proof.Machine

/-- Settles O31. The one port field of the word resolves to its queue, and what stands at that queue's head, or whether the neighbour's
queue is full, decides how the word ends. -/
theorem neighbourPorts : Obligations.NeighbourPorts := by
  unfold Obligations.NeighbourPorts
  constructor
  · intro s k q b d x n hs hbob hclaim hb hd port other full pushed hn
    have h : s.HoldsPorts := ⟨hs, hbob, hclaim⟩
    refine ⟨?pop, ?empty, ?push, ?ctrlv, ?full⟩
    case pop => exact fun e r hq he => h.exec_or_data hn k hb hd hq he
    case empty =>
      intro hq
      refine (h.exec_or_from_port hn k hb hd).trans ?_
      rw [hq]
      rfl
    case push => exact fun hroom => (h.exec_or_to_port hn k hb).trans (h.settle_push_room hn _ hroom)
    case ctrlv => exact fun hroom => (h.exec_ctrlv hn k x).trans (h.settle_push_room hn _ hroom)
    case full =>
      exact fun hfull => ⟨(h.exec_or_to_port hn k hb).trans (State.settle_push_full hn _ hfull),
        (h.exec_ctrlv hn k x).trans (State.settle_push_full hn _ hfull)⟩
  · intro s k q b d n e r hs hbob hclaim hb hd hn hq he h0 h4
    have h : s.HoldsPorts := ⟨hs, hbob, hclaim⟩
    obtain ⟨-, -, -, -, -, -, -, hslot, -⟩ := State.alone_iff.1 hs
    have hme := State.me_takeControl hq h0 h4 hslot
    exact ⟨_, h.exec_or_control hn k hb hd hq he, State.queue_takeControl hq h0 h4 q.isLt, State.qcode_takeControl hq h0 h4,
      congrArg Strand.pc hme, (congrArg Strand.v hme :), (congrArg Strand.x hme :), (congrArg Strand.flags hme :),
      State.mem_takeControl hq h0 h4⟩

end

section
namespace Sys2Proof.Machine

/-! ### Words that are no instruction (R79) -/

theorem decodeWord_of_badMajor {w : IWord} (h : badMajor (fld w.toNat 25 6) = true) : decodeWord w = .error .major := if_pos h

theorem instrOf_of_error {w : IWord} {e : DecodeError} (h : decodeWord w = .error e) : instrOf w = .illegalInstruction w := by
  rw [instrOf, h]

theorem decodeWord_eq_ok_instrOf {w : IWord} (h : (decodeWord w).isOk = true) : decodeWord w = .ok (instrOf w) := by
  unfold instrOf
  cases hd : decodeWord w with
  | ok i => rfl
  | error e => rw [hd] at h; cases h

/-- A word that is no instruction suspends its strand with cause 0x01 and does nothing else. -/
theorem exec_illegalInstruction {s : State} (h : s.alone = true) (h11 : s.cur.slot ≠ 11) (w : IWord) :
    exec (.illegalInstruction w) s = .next (s.suspendedAt 0x01 0 s.cur.bundle) :=
  State.settle_wsys_trap h h11 (.inl rfl)

/-! ### The assigned majors (R79, R81) -/

/-- Bits 24:0 of an instruction of a major: zero, except where selector or type 0 is no instruction. -/
def lowBitsOf : Nat → Nat
  | 0x12 | 0x13 => 7 * 2 ^ 12  -- LDV, STV: the width of a vector
  | 0x16 => 2 ^ 3              -- FENCE: acquire
  | 0x1C => 1 * 2 ^ 5          -- VCVT: target type 1
  | 0x1D => 8 * 2 ^ 5          -- VFMA: type 8
  | 0x35 => 8 * 2 ^ 4          -- QHIST: type 8
  | 0x3B => 1 * 2 ^ 5          -- TLBI: scope 1
  | _ => 0

/-- A word of a major. -/
def wordOfMajor (m : Nat) : IWord := BitVec.ofNat 32 (m * 2 ^ 25 + lowBitsOf m)

theorem lowBitsOf_lt (m : Nat) : lowBitsOf m < 2 ^ 25 := by
  unfold lowBitsOf
  split <;> decide

theorem fld_wordOfMajor {m : Nat} (h : m < 64) : fld (wordOfMajor m).toNat 25 6 = m := by
  have hlow := lowBitsOf_lt m
  simp only [wordOfMajor, BitVec.toNat_ofNat, fld]
  omega

/-- Every assigned major has an instruction. -/
theorem decodeWord_wordOfMajor : ∀ m < 64, badMajor m = false → (decodeWord (wordOfMajor m)).isOk = true := by decide

end Sys2Proof.Machine

open Sys2Proof Sys2Proof.Machine

/-- Settles O1. The decoder tests the major first, what it refuses executes as an illegal instruction, and each other major has the word
`wordOfMajor`. -/
theorem illegalMajors : Obligations.IllegalMajors := by
  unfold Obligations.IllegalMajors
  intro majors major
  refine ⟨fun w hw => ?refused, rfl, rfl, fun m hm hlegal => ?assigned⟩
  case refused =>
    have herr : decodeWord w = .error .major := decodeWord_of_badMajor (decide_eq_true hw)
    refine ⟨fun i hi => ?_, fun s h h11 => ?_⟩
    · rw [herr] at hi
      cases hi
    · rw [instrOf_of_error herr]
      exact exec_illegalInstruction h h11 w
  case assigned =>
    exact ⟨wordOfMajor m, instrOf (wordOfMajor m), fld_wordOfMajor hm,
      decodeWord_eq_ok_instrOf (decodeWord_wordOfMajor m hm (decide_eq_false hlegal))⟩

end
